-- ==== Sys2Proof/Word.lean ====
section
/-! DEFINITION. The word of Boneless-III (00_scope.md R4: XLEN = ALEN = 16), register numbers, and the
content of a place that can be UNDEFINED (R10). -/

namespace Sys2Proof

/-- The only unit of storage and of transfer: 16 bits (R14, R55). It is also an address of `mem` and of `ext`. -/
abbrev Word := BitVec 16

/-- The number of a general register, a 3-bit field of an instruction (R24, R81). -/
abbrev RegNum := BitVec 3

/-- What a flag, `ext13`, PC or a memory word holds: a value, or UNDEFINED (R10, R29, R33, R66).
UNDEFINED is a content the SPEC gives these places; it stands for no fixed value, and a read that
must yield a bit pattern draws a free one (`Config.undefWord`, `Config.undefBit`). -/
inductive Content (α : Type) where
  | defined (x : α)
  | undefined
deriving DecidableEq, Repr

/-- "any operation with an UNDEFINED input will produce an UNDEFINED result" (R10), one input. -/
def Content.map {α β : Type} (f : α → β) : Content α → Content β
  | .defined x => .defined (f x)
  | .undefined => .undefined

/-- R10 for an operation with two inputs. -/
def Content.map₂ {α β γ : Type} (f : α → β → γ) : Content α → Content β → Content γ
  | .defined x, .defined y => .defined (f x y)
  | _, _ => .undefined

/-- R10 for an operation with three inputs. -/
def Content.map₃ {α β γ δ : Type} (f : α → β → γ → δ) :
    Content α → Content β → Content γ → Content δ
  | .defined x, .defined y, .defined z => .defined (f x y z)
  | _, _, _ => .undefined

/-- Whether the place holds a value. -/
def Content.isDefined {α : Type} : Content α → Bool
  | .defined _ => true
  | .undefined => false

end Sys2Proof
end

