-- ==== Sys2Proof/Syntax.lean ====
section
/-! DEFINITION. The instructions of Boneless-III: one constructor per row of spec/opcode_table.json
(30_encoding.md R81), its arguments the row's fields from the high bits down. -/

namespace Sys2Proof

/-- The 64 encoded mnemonics. JNE, JULT, JE and JUGE are second names of the words of JNZ, JNC, JZ and JC
(R90); the decoder answers with the first name of each pair (`Instr.canonical`). -/
inductive Instr where
  -- arithmetic, logic and compare (40_arith_logic.md)
  | and (rd ra rb : RegNum)
  | or (rd ra rb : RegNum)
  | xor (rd ra rb : RegNum)
  | cmp (ra rb : RegNum)
  | andi (rd ra : RegNum) (imm3 : BitVec 3)
  | ori (rd ra : RegNum) (imm3 : BitVec 3)
  | xori (rd ra : RegNum) (imm3 : BitVec 3)
  | cmpi (ra : RegNum) (imm3 : BitVec 3)
  | add (rd ra rb : RegNum)
  | adc (rd ra rb : RegNum)
  | sub (rd ra rb : RegNum)
  | sbb (rd ra rb : RegNum)
  | addi (rd ra : RegNum) (imm3 : BitVec 3)
  | adci (rd ra : RegNum) (imm3 : BitVec 3)
  | subi (rd ra : RegNum) (imm3 : BitVec 3)
  | sbbi (rd ra : RegNum) (imm3 : BitVec 3)
  -- shifts and rotates (45_shift_rotate.md)
  | sll (rd ra rb : RegNum)
  | rol (rd ra rb : RegNum)
  | srl (rd ra rb : RegNum)
  | sra (rd ra rb : RegNum)
  | slli (rd ra : RegNum) (imm3 : BitVec 3)
  | roli (rd ra : RegNum) (imm3 : BitVec 3)
  | srli (rd ra : RegNum) (imm3 : BitVec 3)
  | srai (rd ra : RegNum) (imm3 : BitVec 3)
  -- loads and stores (44_load_store.md)
  | ld (rd ra : RegNum) (off5 : BitVec 5)
  | ldr (rd ra : RegNum) (off5 : BitVec 5)
  | st (rs ra : RegNum) (off5 : BitVec 5)
  | str (rs ra : RegNum) (off5 : BitVec 5)
  | ldx (rd ra : RegNum) (off5 : BitVec 5)
  | ldxa (rd : RegNum) (off8 : BitVec 8)
  | stx (rs ra : RegNum) (off5 : BitVec 5)
  | stxa (rs : RegNum) (off8 : BitVec 8)
  -- moves of immediates (42_exti_moves.md)
  | movi (rd : RegNum) (imm8 : BitVec 8)
  | movr (rd : RegNum) (off8 : BitVec 8)
  -- window instructions (41_window.md)
  | stw (rb : RegNum)
  | xchw (rd rb : RegNum)
  | adjw (imm5 : BitVec 5)
  | ldw (rd : RegNum) (imm5 : BitVec 5)
  -- jumps (43_jumps.md)
  | jr (rs : RegNum) (off5 : BitVec 5)
  | jral (rd rb : RegNum)
  | jvt (rs : RegNum) (off5 : BitVec 5)
  | jst (rs : RegNum) (off5 : BitVec 5)
  | jal (rd : RegNum) (off8 : BitVec 8)
  | jnz (off8 : BitVec 8)
  | jne (off8 : BitVec 8)
  | jns (off8 : BitVec 8)
  | jnc (off8 : BitVec 8)
  | jult (off8 : BitVec 8)
  | jno (off8 : BitVec 8)
  | jugt (off8 : BitVec 8)
  | jsge (off8 : BitVec 8)
  | jsgt (off8 : BitVec 8)
  | jn (off8 : BitVec 8)
  | jz (off8 : BitVec 8)
  | je (off8 : BitVec 8)
  | js (off8 : BitVec 8)
  | jc (off8 : BitVec 8)
  | juge (off8 : BitVec 8)
  | jo (off8 : BitVec 8)
  | jule (off8 : BitVec 8)
  | jslt (off8 : BitVec 8)
  | jsle (off8 : BitVec 8)
  | j (off8 : BitVec 8)
  -- the extended immediate (42_exti_moves.md R150)
  | exti (imm13 : BitVec 13)
deriving DecidableEq, Repr

end Sys2Proof
end

