-- ==== Sys2Proof/WellFormed.lean ====
section
/-! DEFINITION. The restrictions an instruction must meet by its own fields, whatever the registers hold:
the long-form restriction (R87), the windows' multiple of 8 (R140) and the "TBD" row of decode_imm_al
(R9). Which of them apply depends on the form it executes in, so `wellFormed` takes the form. -/

namespace Sys2Proof

/-- The immediate or offset field of an instruction, by the row of R86's table it belongs to. -/
inductive OperandField where
  /-- no immediate: the instruction does not consult has_ext13 (R32) -/
  | none
  /-- imm3 of an arithmetic, logic or compare instruction: `decode_imm_al` in short form -/
  | alu (imm3 : BitVec 3)
  /-- imm3 of a shift or rotate: `decode_imm_sr` in short form -/
  | shift (imm3 : BitVec 3)
  /-- imm5 of ADJW and LDW: the amount added to W -/
  | window (imm5 : BitVec 5)
  /-- off5 -/
  | five (off5 : BitVec 5)
  /-- imm8 or off8 -/
  | eight (off8 : BitVec 8)
deriving DecidableEq, Repr

/-- R86, R32: the field each instruction takes its immediate from. -/
def Instr.operandField : Instr → OperandField
  | .and _ _ _ => .none
  | .or _ _ _ => .none
  | .xor _ _ _ => .none
  | .cmp _ _ => .none
  | .andi _ _ imm3 => .alu imm3
  | .ori _ _ imm3 => .alu imm3
  | .xori _ _ imm3 => .alu imm3
  | .cmpi _ imm3 => .alu imm3
  | .add _ _ _ => .none
  | .adc _ _ _ => .none
  | .sub _ _ _ => .none
  | .sbb _ _ _ => .none
  | .addi _ _ imm3 => .alu imm3
  | .adci _ _ imm3 => .alu imm3
  | .subi _ _ imm3 => .alu imm3
  | .sbbi _ _ imm3 => .alu imm3
  | .sll _ _ _ => .none
  | .rol _ _ _ => .none
  | .srl _ _ _ => .none
  | .sra _ _ _ => .none
  | .slli _ _ imm3 => .shift imm3
  | .roli _ _ imm3 => .shift imm3
  | .srli _ _ imm3 => .shift imm3
  | .srai _ _ imm3 => .shift imm3
  | .ld _ _ off5 => .five off5
  | .ldr _ _ off5 => .five off5
  | .st _ _ off5 => .five off5
  | .str _ _ off5 => .five off5
  | .ldx _ _ off5 => .five off5
  | .ldxa _ off8 => .eight off8
  | .stx _ _ off5 => .five off5
  | .stxa _ off8 => .eight off8
  | .movi _ imm8 => .eight imm8
  | .movr _ off8 => .eight off8
  | .stw _ => .none
  | .xchw _ _ => .none
  | .adjw imm5 => .window imm5
  | .ldw _ imm5 => .window imm5
  | .jr _ off5 => .five off5
  | .jral _ _ => .none
  | .jvt _ off5 => .five off5
  | .jst _ off5 => .five off5
  | .jal _ off8 => .eight off8
  | .jnz off8 => .eight off8
  | .jne off8 => .eight off8
  | .jns off8 => .eight off8
  | .jnc off8 => .eight off8
  | .jult off8 => .eight off8
  | .jno off8 => .eight off8
  | .jugt off8 => .eight off8
  | .jsge off8 => .eight off8
  | .jsgt off8 => .eight off8
  | .jn off8 => .eight off8
  | .jz off8 => .eight off8
  | .je off8 => .eight off8
  | .js off8 => .eight off8
  | .jc off8 => .eight off8
  | .juge off8 => .eight off8
  | .jo off8 => .eight off8
  | .jule off8 => .eight off8
  | .jslt off8 => .eight off8
  | .jsle off8 => .eight off8
  | .j off8 => .eight off8
  | .exti _ => .none

/-- Whether the field keeps the restrictions of the form the instruction executes in (`long` = executed
with has_ext13 = 1). Short form: imm3 = 3 of an arithmetic or logical immediate names the "TBD" row
(R9, R110), and the amount of ADJW and LDW is a multiple of 8 (R141, R142). Long form: the field's
bits above bit 2 are zero (R87), and so are the low three bits of ADJW's and LDW's amount. A shift
amount above 15 in long form depends on ext13 and is no matter of the field. -/
def OperandField.wellFormed (long : Bool) : OperandField → Bool
  | .none => true
  | .alu imm3 => long || imm3 != 3#3
  | .shift _ => true
  | .window imm5 => imm5.extractLsb' 0 3 == 0#3 && (!long || imm5.extractLsb' 3 2 == 0#2)
  | .five off5 => !long || off5.extractLsb' 3 2 == 0#2
  | .eight off8 => !long || off8.extractLsb' 3 5 == 0#5

/-- The restrictions of R87, R9, R141 and R142 on an instruction's own fields. -/
def Instr.wellFormed (long : Bool) (i : Instr) : Bool := i.operandField.wellFormed long

/-- R90: the name the decoder gives an instruction's word. It differs from the instruction only for
the second name of each of the four pairs. -/
def Instr.canonical : Instr → Instr
  | .and rd ra rb => .and rd ra rb
  | .or rd ra rb => .or rd ra rb
  | .xor rd ra rb => .xor rd ra rb
  | .cmp ra rb => .cmp ra rb
  | .andi rd ra imm3 => .andi rd ra imm3
  | .ori rd ra imm3 => .ori rd ra imm3
  | .xori rd ra imm3 => .xori rd ra imm3
  | .cmpi ra imm3 => .cmpi ra imm3
  | .add rd ra rb => .add rd ra rb
  | .adc rd ra rb => .adc rd ra rb
  | .sub rd ra rb => .sub rd ra rb
  | .sbb rd ra rb => .sbb rd ra rb
  | .addi rd ra imm3 => .addi rd ra imm3
  | .adci rd ra imm3 => .adci rd ra imm3
  | .subi rd ra imm3 => .subi rd ra imm3
  | .sbbi rd ra imm3 => .sbbi rd ra imm3
  | .sll rd ra rb => .sll rd ra rb
  | .rol rd ra rb => .rol rd ra rb
  | .srl rd ra rb => .srl rd ra rb
  | .sra rd ra rb => .sra rd ra rb
  | .slli rd ra imm3 => .slli rd ra imm3
  | .roli rd ra imm3 => .roli rd ra imm3
  | .srli rd ra imm3 => .srli rd ra imm3
  | .srai rd ra imm3 => .srai rd ra imm3
  | .ld rd ra off5 => .ld rd ra off5
  | .ldr rd ra off5 => .ldr rd ra off5
  | .st rs ra off5 => .st rs ra off5
  | .str rs ra off5 => .str rs ra off5
  | .ldx rd ra off5 => .ldx rd ra off5
  | .ldxa rd off8 => .ldxa rd off8
  | .stx rs ra off5 => .stx rs ra off5
  | .stxa rs off8 => .stxa rs off8
  | .movi rd imm8 => .movi rd imm8
  | .movr rd off8 => .movr rd off8
  | .stw rb => .stw rb
  | .xchw rd rb => .xchw rd rb
  | .adjw imm5 => .adjw imm5
  | .ldw rd imm5 => .ldw rd imm5
  | .jr rs off5 => .jr rs off5
  | .jral rd rb => .jral rd rb
  | .jvt rs off5 => .jvt rs off5
  | .jst rs off5 => .jst rs off5
  | .jal rd off8 => .jal rd off8
  | .jnz off8 => .jnz off8
  | .jne off8 => .jnz off8
  | .jns off8 => .jns off8
  | .jnc off8 => .jnc off8
  | .jult off8 => .jnc off8
  | .jno off8 => .jno off8
  | .jugt off8 => .jugt off8
  | .jsge off8 => .jsge off8
  | .jsgt off8 => .jsgt off8
  | .jn off8 => .jn off8
  | .jz off8 => .jz off8
  | .je off8 => .jz off8
  | .js off8 => .js off8
  | .jc off8 => .jc off8
  | .juge off8 => .jc off8
  | .jo off8 => .jo off8
  | .jule off8 => .jule off8
  | .jslt off8 => .jslt off8
  | .jsle off8 => .jsle off8
  | .j off8 => .j off8
  | .exti imm13 => .exti imm13

end Sys2Proof
end

