-- ==== Sys2Proof/Decode.lean ====
section
/-! DEFINITION. Decoding and encoding of the one-word instructions (30_encoding.md R80 to R92). The decoder
is total on words and rejects a word that is no instruction by the name of the pattern of R88 it has. -/

namespace Sys2Proof

/-- Why a word is "not present" (R88): one name for each row of its table. -/
inductive Reject where
  /-- major opcode 00110, 00111, 10010, 10011 or 11100 to 11111 -/
  | majorOpcodeUnassigned
  /-- CMP or CMPI with bits 10:8 not 000 -/
  | compareHasDestination
  /-- STW with bits 10:8 not 000 or bits 4:3 not 00 -/
  | stwConstantBits
  /-- XCHW with bits 4:3 not 00 -/
  | xchwConstantBits
  /-- ADJW with bits 10:8 not 000 -/
  | adjwConstantBits
  /-- JRAL with bits 4:3 not 00 -/
  | jralConstantBits
deriving DecidableEq, Repr

/-- Opcode 00000 by type (R83). -/
def decodeLogic (ty : BitVec 2) (rd ra rb : RegNum) : Except Reject Instr :=
  match ty.toNat with
  | 0 => .ok (.and rd ra rb)
  | 1 => .ok (.or rd ra rb)
  | 2 => .ok (.xor rd ra rb)
  | _ => if rd = 0#3 then .ok (.cmp ra rb) else .error .compareHasDestination

/-- Opcode 00001 by type (R83). -/
def decodeLogicImm (ty : BitVec 2) (rd ra : RegNum) (imm3 : BitVec 3) : Except Reject Instr :=
  match ty.toNat with
  | 0 => .ok (.andi rd ra imm3)
  | 1 => .ok (.ori rd ra imm3)
  | 2 => .ok (.xori rd ra imm3)
  | _ => if rd = 0#3 then .ok (.cmpi ra imm3) else .error .compareHasDestination

/-- Opcode 00010 by type (R83). -/
def decodeArith (ty : BitVec 2) (rd ra rb : RegNum) : Instr :=
  match ty.toNat with
  | 0 => .add rd ra rb
  | 1 => .adc rd ra rb
  | 2 => .sub rd ra rb
  | _ => .sbb rd ra rb

/-- Opcode 00011 by type (R83). -/
def decodeArithImm (ty : BitVec 2) (rd ra : RegNum) (imm3 : BitVec 3) : Instr :=
  match ty.toNat with
  | 0 => .addi rd ra imm3
  | 1 => .adci rd ra imm3
  | 2 => .subi rd ra imm3
  | _ => .sbbi rd ra imm3

/-- Opcode 00100 by type (R83). -/
def decodeShift (ty : BitVec 2) (rd ra rb : RegNum) : Instr :=
  match ty.toNat with
  | 0 => .sll rd ra rb
  | 1 => .rol rd ra rb
  | 2 => .srl rd ra rb
  | _ => .sra rd ra rb

/-- Opcode 00101 by type (R83, 90_conflicts.md C3 for SRAI). -/
def decodeShiftImm (ty : BitVec 2) (rd ra : RegNum) (imm3 : BitVec 3) : Instr :=
  match ty.toNat with
  | 0 => .slli rd ra imm3
  | 1 => .roli rd ra imm3
  | 2 => .srli rd ra imm3
  | _ => .srai rd ra imm3

/-- Opcode 10100 by the sub field, bits 7:5 (R84). `rsd` is bits 10:8, `low` bits 4:0. -/
def decodeWindow (sub : BitVec 3) (rsd : RegNum) (low : BitVec 5) : Except Reject Instr :=
  let rb : RegNum := low.extractLsb' 0 3
  let plain : Bool := low.extractLsb' 3 2 == 0#2
  match sub.toNat with
  | 0 => if rsd = 0#3 ∧ plain = true then .ok (.stw rb) else .error .stwConstantBits
  | 1 => if plain = true then .ok (.xchw rsd rb) else .error .xchwConstantBits
  | 2 => if rsd = 0#3 then .ok (.adjw low) else .error .adjwConstantBits
  | 3 => .ok (.ldw rsd low)
  | 4 => .ok (.jr rsd low)
  | 5 => if plain = true then .ok (.jral rsd rb) else .error .jralConstantBits
  | 6 => .ok (.jvt rsd low)
  | _ => .ok (.jst rsd low)

/-- Format C by the cond field, bits 11:8 (R85, with 90_conflicts.md C1 for JUGT and JULE). Of the two names of
one encoding (R90) the decoder answers JNZ, JNC, JZ and JC. -/
def decodeJump (cond : BitVec 4) (off8 : BitVec 8) : Instr :=
  match cond.toNat with
  | 0 => .jnz off8
  | 1 => .jns off8
  | 2 => .jnc off8
  | 3 => .jno off8
  | 4 => .jugt off8
  | 5 => .jsge off8
  | 6 => .jsgt off8
  | 7 => .jn off8
  | 8 => .jz off8
  | 9 => .js off8
  | 10 => .jc off8
  | 11 => .jo off8
  | 12 => .jule off8
  | 13 => .jslt off8
  | 14 => .jsle off8
  | _ => .j off8

/-- The instruction a word is, by its major opcode, bits 15:11 (R82). -/
def decode (w : Word) : Except Reject Instr :=
  let rsd : RegNum := w.extractLsb' 8 3
  let ra : RegNum := w.extractLsb' 5 3
  let ty : BitVec 2 := w.extractLsb' 3 2
  let low3 : BitVec 3 := w.extractLsb' 0 3
  let low5 : BitVec 5 := w.extractLsb' 0 5
  let low8 : BitVec 8 := w.extractLsb' 0 8
  match (w.extractLsb' 11 5).toNat with
  | 0 => decodeLogic ty rsd ra low3
  | 1 => decodeLogicImm ty rsd ra low3
  | 2 => .ok (decodeArith ty rsd ra low3)
  | 3 => .ok (decodeArithImm ty rsd ra low3)
  | 4 => .ok (decodeShift ty rsd ra low3)
  | 5 => .ok (decodeShiftImm ty rsd ra low3)
  | 8 => .ok (.ld rsd ra low5)
  | 9 => .ok (.ldr rsd ra low5)
  | 10 => .ok (.st rsd ra low5)
  | 11 => .ok (.str rsd ra low5)
  | 12 => .ok (.ldx rsd ra low5)
  | 13 => .ok (.ldxa rsd low8)
  | 14 => .ok (.stx rsd ra low5)
  | 15 => .ok (.stxa rsd low8)
  | 16 => .ok (.movi rsd low8)
  | 17 => .ok (.movr rsd low8)
  | 20 => decodeWindow ra rsd low5
  | 21 => .ok (.jal rsd low8)
  | 22 => .ok (decodeJump (w.extractLsb' 8 4) low8)
  | 23 => .ok (decodeJump (w.extractLsb' 8 4) low8)
  | 24 => .ok (.exti (w.extractLsb' 0 13))
  | 25 => .ok (.exti (w.extractLsb' 0 13))
  | 26 => .ok (.exti (w.extractLsb' 0 13))
  | 27 => .ok (.exti (w.extractLsb' 0 13))
  | _ => .error .majorOpcodeUnassigned

/-- The instruction the decoder reads from an instruction whose bits are `w`, numbered as
spec/opcode_table.json numbers them. Every instruction is one word (R80) and the word has no bytes
(R55), so the word is the bits `w`, the ones above `nbits` zero. -/
def tableWord (nbits w : Nat) : Word := BitVec.ofNat 16 (w % 2 ^ nbits)

/-- The host's reading of one opcode-table word through `decode`. -/
def decodeTableWord (nbits w : Nat) : Option Instr :=
  match decode (tableWord nbits w) with
  | .ok i => some i
  | .error _ => none

/-! The seven formats of R81, as words. -/

/-- Format R, and format I3 with imm3 in Rb's place. -/
def formatR (op : BitVec 5) (rd ra : RegNum) (ty : BitVec 2) (rb : BitVec 3) : Word :=
  op ++ (rd ++ (ra ++ (ty ++ rb)))

/-- Format M, and format W with its sub field in Ra's place. -/
def formatM (op : BitVec 5) (rsd : RegNum) (ra : BitVec 3) (off5 : BitVec 5) : Word :=
  op ++ (rsd ++ (ra ++ off5))

/-- Format I8. -/
def formatI8 (op : BitVec 5) (rsd : RegNum) (imm8 : BitVec 8) : Word :=
  op ++ (rsd ++ imm8)

/-- Format C: 1011, cond, off8. -/
def formatC (cond : BitVec 4) (off8 : BitVec 8) : Word :=
  0b1011#4 ++ (cond ++ off8)

/-- Format X: 110, imm13. -/
def formatX (imm13 : BitVec 13) : Word :=
  0b110#3 ++ imm13

/-- The low five bits of format W where its figure prints 00 in bits 4:3 (R84). -/
def plainLow (rb : RegNum) : BitVec 5 := 0#2 ++ rb

/-- The word of an instruction (R82 to R85). -/
def encode : Instr → Word
  | .and rd ra rb => formatR 0b00000#5 rd ra 0b00#2 rb
  | .or rd ra rb => formatR 0b00000#5 rd ra 0b01#2 rb
  | .xor rd ra rb => formatR 0b00000#5 rd ra 0b10#2 rb
  | .cmp ra rb => formatR 0b00000#5 0#3 ra 0b11#2 rb
  | .andi rd ra imm3 => formatR 0b00001#5 rd ra 0b00#2 imm3
  | .ori rd ra imm3 => formatR 0b00001#5 rd ra 0b01#2 imm3
  | .xori rd ra imm3 => formatR 0b00001#5 rd ra 0b10#2 imm3
  | .cmpi ra imm3 => formatR 0b00001#5 0#3 ra 0b11#2 imm3
  | .add rd ra rb => formatR 0b00010#5 rd ra 0b00#2 rb
  | .adc rd ra rb => formatR 0b00010#5 rd ra 0b01#2 rb
  | .sub rd ra rb => formatR 0b00010#5 rd ra 0b10#2 rb
  | .sbb rd ra rb => formatR 0b00010#5 rd ra 0b11#2 rb
  | .addi rd ra imm3 => formatR 0b00011#5 rd ra 0b00#2 imm3
  | .adci rd ra imm3 => formatR 0b00011#5 rd ra 0b01#2 imm3
  | .subi rd ra imm3 => formatR 0b00011#5 rd ra 0b10#2 imm3
  | .sbbi rd ra imm3 => formatR 0b00011#5 rd ra 0b11#2 imm3
  | .sll rd ra rb => formatR 0b00100#5 rd ra 0b00#2 rb
  | .rol rd ra rb => formatR 0b00100#5 rd ra 0b01#2 rb
  | .srl rd ra rb => formatR 0b00100#5 rd ra 0b10#2 rb
  | .sra rd ra rb => formatR 0b00100#5 rd ra 0b11#2 rb
  | .slli rd ra imm3 => formatR 0b00101#5 rd ra 0b00#2 imm3
  | .roli rd ra imm3 => formatR 0b00101#5 rd ra 0b01#2 imm3
  | .srli rd ra imm3 => formatR 0b00101#5 rd ra 0b10#2 imm3
  | .srai rd ra imm3 => formatR 0b00101#5 rd ra 0b11#2 imm3
  | .ld rd ra off5 => formatM 0b01000#5 rd ra off5
  | .ldr rd ra off5 => formatM 0b01001#5 rd ra off5
  | .st rs ra off5 => formatM 0b01010#5 rs ra off5
  | .str rs ra off5 => formatM 0b01011#5 rs ra off5
  | .ldx rd ra off5 => formatM 0b01100#5 rd ra off5
  | .ldxa rd off8 => formatI8 0b01101#5 rd off8
  | .stx rs ra off5 => formatM 0b01110#5 rs ra off5
  | .stxa rs off8 => formatI8 0b01111#5 rs off8
  | .movi rd imm8 => formatI8 0b10000#5 rd imm8
  | .movr rd off8 => formatI8 0b10001#5 rd off8
  | .stw rb => formatM 0b10100#5 0#3 0b000#3 (plainLow rb)
  | .xchw rd rb => formatM 0b10100#5 rd 0b001#3 (plainLow rb)
  | .adjw imm5 => formatM 0b10100#5 0#3 0b010#3 imm5
  | .ldw rd imm5 => formatM 0b10100#5 rd 0b011#3 imm5
  | .jr rs off5 => formatM 0b10100#5 rs 0b100#3 off5
  | .jral rd rb => formatM 0b10100#5 rd 0b101#3 (plainLow rb)
  | .jvt rs off5 => formatM 0b10100#5 rs 0b110#3 off5
  | .jst rs off5 => formatM 0b10100#5 rs 0b111#3 off5
  | .jal rd off8 => formatI8 0b10101#5 rd off8
  | .jnz off8 => formatC 0b0000#4 off8
  | .jne off8 => formatC 0b0000#4 off8
  | .jns off8 => formatC 0b0001#4 off8
  | .jnc off8 => formatC 0b0010#4 off8
  | .jult off8 => formatC 0b0010#4 off8
  | .jno off8 => formatC 0b0011#4 off8
  | .jugt off8 => formatC 0b0100#4 off8
  | .jsge off8 => formatC 0b0101#4 off8
  | .jsgt off8 => formatC 0b0110#4 off8
  | .jn off8 => formatC 0b0111#4 off8
  | .jz off8 => formatC 0b1000#4 off8
  | .je off8 => formatC 0b1000#4 off8
  | .js off8 => formatC 0b1001#4 off8
  | .jc off8 => formatC 0b1010#4 off8
  | .juge off8 => formatC 0b1010#4 off8
  | .jo off8 => formatC 0b1011#4 off8
  | .jule off8 => formatC 0b1100#4 off8
  | .jslt off8 => formatC 0b1101#4 off8
  | .jsle off8 => formatC 0b1110#4 off8
  | .j off8 => formatC 0b1111#4 off8
  | .exti imm13 => formatX imm13

end Sys2Proof
end

