-- ==== Sys2Proof/Config.lean ====
section
/-! DEFINITION. What the manual leaves to the implementation (00_scope.md R4) and the free values that
nothing constrains (R10, R51). A parameter with a default in R4 has that default as its body; a free
value is `opaque` and has none. -/

namespace Sys2Proof

/-- One cycle on the external bus (R51): a load cycle with the environment's answer, or a store cycle. -/
inductive ExtEvent where
  | read (addr answer : Word)
  | write (addr data : Word)
deriving DecidableEq, Repr

/-- Where inside one instruction an UNDEFINED word has to become a bit pattern: the instruction word
itself (R283), the address it is fetched at, where PC is UNDEFINED, an address presented to a memory or bus store or
load cycle, the data driven on the bus (R207). -/
inductive DrawSite where
  | fetch | pc | address | data
deriving DecidableEq, Repr

/-- What backs a word address of `mem` (parameter MEM_MAP, R4, R50). -/
inductive MemKind where
  | readWrite | readOnly | absent
deriving DecidableEq, Repr

/-- RESET_PC, default 0x0000 (R4, R40). -/
def Config.resetPc : Word := 0x0000

/-- RESET_W, default 0xFFF8, a multiple of 8 (R4, R40). -/
def Config.resetW : Word := 0xFFF8

/-- MEM_INIT (R4): no word has an initial value, so every word of `mem` is UNDEFINED after reset (R40). -/
def Config.memInit : List (Nat × Word) := []

/-- MEM_MAP, default: all 65536 addresses are read-write storage (R4, R50). -/
def Config.memMap (_ : Word) : MemKind := .readWrite

/-- IMM_AL_3 (R4, R9): row 3 of decode_imm_al is "TBD" and R4 gives the parameter no default. The
manual fixes neither whether an implementation supplies it nor its value: FREE. -/
opaque Config.immAl3 : Option Word

/-- FREE: the bit pattern that a read of an UNDEFINED word yields (R10). A fresh one at every read: the
first argument numbers the instruction executed, the second the read inside it. -/
opaque Config.undefWord : Nat → DrawSite → Word

/-- FREE: how a condition on an UNDEFINED flag evaluates in the instruction of that number (R10, R161). -/
opaque Config.undefBit : Nat → Bool

/-- FREE: EXT_BUS (R4, R51), the environment's answer to a load cycle on the external bus, after the
bus cycles done so far. -/
opaque Config.extAnswer : List ExtEvent → Word → Word

end Sys2Proof
end

