-- ==== Sys2Proof/Machine/State.lean ====
section
/-! DEFINITION. The architectural state (10_state.md R20), its reset values (R40) and the ways a step can stop
(60_exceptions.md R251). -/

namespace Sys2Proof.Machine

/-- The UNPREDICTABLE conditions of R251, the complete list. Each ends the run (R252): the hardware may do
anything there, so stopping is SAFE. -/
inductive Fault where
  /-- `encoding_not_present`: raised by `step` when the fetched word is no instruction (R88). Safe. -/
  | encodingNotPresent
  /-- `long_form_high_bits`: raised by the operand of imm5, off5, imm8 and off8 in long form (R87). Safe. -/
  | longFormHighBits
  /-- `window_not_multiple_of_8`: raised by ADJW, LDW, STW and XCHW (R140). Safe. -/
  | windowNotMultipleOf8
  /-- `shift_amount_above_15`: raised by the shifts and rotates (R220). Safe. -/
  | shiftAmountAbove15
  /-- `imm_al_3_undefined`: raised by the arithmetic and logical immediates in short form with imm3 = 3
  where the configuration supplies no IMM_AL_3 (R9). Safe. -/
  | immAl3Undefined
deriving DecidableEq, Repr

/-- Why a step is refused. -/
inductive Refusal where
  /-- raised by an arm of `exec` whose instruction has no meaning; no arm is left so, and nothing raises it. Safe. -/
  | notModelled (mnemonic : String)
deriving DecidableEq, Repr

/-- Main memory as (word address, word) cells: addresses strictly rising and below 65536 (`Memory.wf`). An
address that is not listed holds UNDEFINED (R66), so no listed cell equals what an unlisted address
reads as. The machine has no bytes (R50, R55): a cell is a 16-bit word. -/
abbrev Memory := List (Nat × Word)

/-- Addresses strictly rising from `lo` on and below 65536. -/
def Memory.wfFrom : Nat → Memory → Bool
  | _, [] => true
  | lo, (a, _) :: rest => decide (lo ≤ a) && decide (a < 65536) && Memory.wfFrom (a + 1) rest

/-- The canonical form of memory. -/
def Memory.wf (m : Memory) : Bool := Memory.wfFrom 0 m

/-- The complete architectural state (R20), the record of the external bus (R51) and the model's own
counter of draws. R0 to R7 are no fields: they are the words `mem[W]` to `mem[W+7]` (R24). -/
structure State where
  /-- PC, the word address of the instruction to execute (R21), or UNDEFINED where it was computed from an UNDEFINED
  input (R10). -/
  pc : Content Word
  /-- W, the address of R0 (R25). It never becomes UNDEFINED: what would make it so stops (R140, R251). -/
  w : Word
  /-- Z (R29). -/
  flagZ : Content Bool
  /-- S (R29). -/
  flagS : Content Bool
  /-- C (R29). -/
  flagC : Content Bool
  /-- V (R29). -/
  flagV : Content Bool
  /-- ext13, the immediate prefix (R31). -/
  ext13 : Content (BitVec 13)
  /-- has_ext13: the previous instruction was EXTI (R31, R33). -/
  hasExt13 : Bool
  /-- `mem` (R50), the general registers among its words (R54). -/
  mem : Memory
  /-- The cycles done on the external bus, oldest first (R51). -/
  extTrace : List ExtEvent
  /-- The MODEL's own: how many instructions have executed. It makes every draw a fresh one (R10). -/
  drawIndex : Nat
deriving DecidableEq, Repr

/-- The state after reset (R40, R281). The flags and ext13 are UNDEFINED, has_ext13 is 0, `mem` holds
MEM_INIT. DESIGN CHOICE: `drawIndex` starts at 0; no statement rests on it. -/
def State.reset : State where
  pc := .defined Config.resetPc
  w := Config.resetW
  flagZ := .undefined
  flagS := .undefined
  flagC := .undefined
  flagV := .undefined
  ext13 := .undefined
  hasExt13 := false
  mem := Config.memInit
  extTrace := []
  drawIndex := 0

end Sys2Proof.Machine
end

