-- ==== Sys2Proof/Machine/Ops.lean ====
section
/-! DEFINITION. The named operations over memory, registers, the external bus and the program counter, and
the common ends of an instruction. Boneless-III has no exception to take and none to return from
(60_exceptions.md R250, R256, R257): the one way out of a step other than a next state is a fault. -/

namespace Sys2Proof.Machine

/-- What a meaning answers. -/
abbrev Result := Host.Outcome State Fault Refusal

/-- The instruction goes on with the value, or stops with the fault of a restriction it breaks. -/
def withOperand {α : Type} (r : Except Fault α) (k : α → Result) : Result :=
  match r with
  | .ok a => k a
  | .error f => .fault f

/-! ## Main memory -/

/-- The content of a word address; an address that is not listed holds UNDEFINED (R66). -/
def Memory.lookup : Memory → Nat → Content Word
  | [], _ => .undefined
  | (b, v) :: rest, a => if b = a then .defined v else Memory.lookup rest a

/-- List a word, in its place by address. -/
def Memory.insert : Memory → Nat → Word → Memory
  | [], a, v => [(a, v)]
  | (b, u) :: rest, a, v =>
    if b = a then (a, v) :: rest
    else if a < b then (a, v) :: (b, u) :: rest
    else (b, u) :: Memory.insert rest a v

/-- Unlist an address: its word becomes UNDEFINED. -/
def Memory.erase : Memory → Nat → Memory
  | [], _ => []
  | (b, v) :: rest, a => if b = a then Memory.erase rest a else (b, v) :: Memory.erase rest a

/-- Store a content; storing an UNDEFINED one makes the word UNDEFINED (R205). -/
def Memory.write (m : Memory) (a : Nat) : Content Word → Memory
  | .defined v => m.insert a v
  | .undefined => m.erase a

/-- `MemRead(a, 1)` (R12, R50): no side effect (R58). An address that MEM_MAP calls absent has no word to
give, so it reads UNDEFINED. -/
def State.memRead (s : State) (a : Word) : Content Word :=
  match Config.memMap a with
  | .readWrite => s.mem.lookup a.toNat
  | .readOnly => s.mem.lookup a.toNat
  | .absent => .undefined

/-- `MemWrite(a, 1, v)` (R12, R50). A write to what is not read-write storage is lost (R54). -/
def State.memWrite (s : State) (a : Word) (v : Content Word) : State :=
  match Config.memMap a with
  | .readWrite => { s with mem := s.mem.write a.toNat v }
  | .readOnly => s
  | .absent => s

/-- A read at a computed address: with an UNDEFINED address the word read is UNDEFINED (R10). -/
def State.memReadAt (s : State) : Content Word → Content Word
  | .defined a => s.memRead a
  | .undefined => .undefined

/-! ## UNDEFINED values that have to become bit patterns -/

/-- The bit pattern of a word that has to be one: the word, or a fresh free one where it is UNDEFINED (R10). -/
def State.resolve (s : State) (site : DrawSite) : Content Word → Word
  | .defined v => v
  | .undefined => Config.undefWord s.drawIndex site

/-- How a condition evaluates: as it says, or either way where it reads an UNDEFINED flag (R161). -/
def State.resolveBit (s : State) : Content Bool → Bool
  | .defined b => b
  | .undefined => Config.undefBit s.drawIndex

/-! ## General registers -/

/-- The address of Rn: W + n, wrapping (R26). -/
def State.regAddr (s : State) (r : RegNum) : Word := s.w + r.setWidth 16

/-- `x[i]` (R12): Rn is a word of memory (R24). -/
def State.reg (s : State) (r : RegNum) : Content Word := s.memRead (s.regAddr r)

/-- `x[i] <- v` (R12). -/
def State.setReg (s : State) (r : RegNum) (v : Content Word) : State := s.memWrite (s.regAddr r) v

/-- `W <- t` (R12): it moves no data (R25). -/
def State.setWindow (s : State) (t : Word) : State := { s with w := t }

/-! ## External bus -/

/-- `ExtRead(a, 1)` (R12, R51), the answer: whatever the environment returns. -/
def State.extAnswer (s : State) (a : Word) : Word := Config.extAnswer s.extTrace a

/-- The load cycle is recorded with its answer (R51). -/
def State.recordExtRead (s : State) (a : Word) : State :=
  { s with extTrace := s.extTrace ++ [.read a (s.extAnswer a)] }

/-- `ExtWrite(a, 1, v)` (R12, R51): an event handed to the environment. -/
def State.extWrite (s : State) (a v : Word) : State :=
  { s with extTrace := s.extTrace ++ [.write a v] }

/-! ## The end of an instruction -/

/-- The epilogue of R33 for every instruction but EXTI. -/
def State.clearExt (s : State) : State :=
  { s with ext13 := .undefined, hasExt13 := false, drawIndex := s.drawIndex + 1 }

/-- `pc + 1`, wrapping (R22). Where PC is UNDEFINED so is this (R10). -/
def State.nextPc (s : State) : Content Word := s.pc.map (· + 1)

/-- `pc <- t` and the epilogue: the end of a jump (R13). A `t` computed from an UNDEFINED input leaves PC UNDEFINED
(R10). -/
def State.jump (s : State) (t : Content Word) : State := { s.clearExt with pc := t }

/-- `pc <- pc + 1` and the epilogue: the end of every other instruction (R13, R22). -/
def State.advance (s : State) : State := s.jump s.nextPc

/-- The end of EXTI (R150): ext13 and has_ext13 set, the clearing epilogue not applied. -/
def State.extend (s : State) (imm13 : BitVec 13) : State :=
  { s with ext13 := .defined imm13, hasExt13 := true, drawIndex := s.drawIndex + 1, pc := s.nextPc }

/-! ## Fetch -/

/-- The address of the instruction word: PC, or a fresh free address at every fetch while PC is UNDEFINED (R10). -/
def State.fetchAddress (s : State) : Word := s.resolve .pc s.pc

/-- The instruction word: `MemRead(PC, 1)` (R53). An UNDEFINED word can be any instruction or none (R283). -/
def State.fetch (s : State) : Word := s.resolve .fetch (s.memRead s.fetchAddress)

end Sys2Proof.Machine
end

