-- ==== Sys2Proof/Machine/Flags.lean ====
section
/-! DEFINITION. The arithmetic of the ALU and its flags (10_state.md R29, R30; 40_arith_logic.md R111; 45_shift_rotate.md
R220). -/

namespace Sys2Proof.Machine

/-- What an arithmetic operation yields: the word and the four flags. -/
structure AluOut where
  res : Word
  z : Bool
  s : Bool
  c : Bool
  v : Bool
deriving DecidableEq, Repr

/-- `res = opA + opB + cin`, 17 bits wide, so exact (R7, R111). -/
def sum17 (opA opB : Word) (cin : Bool) : BitVec 17 :=
  opA.setWidth 17 + opB.setWidth 17 + (BitVec.ofBool cin).setWidth 17

/-- Z: the low 16 bits are zero (R29). -/
def zeroFlag (res : Word) : Bool := res == 0

/-- S: bit 15 of the result (R29). -/
def signFlag (res : Word) : Bool := res.getLsbD 15

/-- Addition (R111): C is `res[16]`, V is two's complement overflow. -/
def addOut (opA opB : Word) (cin : Bool) : AluOut :=
  let sum := sum17 opA opB cin
  let res : Word := sum.setWidth 16
  { res := res
    z := zeroFlag res
    s := signFlag res
    c := sum.getLsbD 16
    v := (opA.getLsbD 15 == opB.getLsbD 15) && (opA.getLsbD 15 != res.getLsbD 15) }

/-- Subtraction (R111): `res = opA + (not opB) + cin`, so C is a not-borrow; V by the operands' own signs. -/
def subOut (opA opB : Word) (cin : Bool) : AluOut :=
  let sum := sum17 opA (~~~opB) cin
  let res : Word := sum.setWidth 16
  { res := res
    z := zeroFlag res
    s := signFlag res
    c := sum.getLsbD 16
    v := (opA.getLsbD 15 == !opB.getLsbD 15) && (opA.getLsbD 15 != res.getLsbD 15) }

/-- Z, S, C and V of an arithmetic or compare instruction (R30); UNDEFINED where its result is (R10, R112). -/
def State.setArithFlags (s : State) (o : Content AluOut) : State :=
  { s with
    flagZ := o.map AluOut.z, flagS := o.map AluOut.s
    flagC := o.map AluOut.c, flagV := o.map AluOut.v }

/-- Z and S of a logical, shift or rotate instruction; C and V become UNDEFINED (R30). -/
def State.setLogicFlags (s : State) (res : Content Word) : State :=
  { s with
    flagZ := res.map zeroFlag, flagS := res.map signFlag
    flagC := .undefined, flagV := .undefined }

/-- Write Rd and the four flags, and end: the arithmetic instructions. -/
def State.finishArith (s : State) (rd : RegNum) (o : Content AluOut) : State :=
  ((s.setReg rd (o.map AluOut.res)).setArithFlags o).advance

/-- Write Rd, Z and S, make C and V UNDEFINED, and end: the logical, shift and rotate instructions. -/
def State.finishLogic (s : State) (rd : RegNum) (res : Content Word) : State :=
  ((s.setReg rd res).setLogicFlags res).advance

/-! Shifts and rotates by n in 0 to 15, the bit slices of R220. -/

/-- `{opA[15-n:0], n{0}}`. -/
def shiftLeft (opA : Word) (n : Nat) : Word := opA <<< n

/-- `{n{0}, opA[15:n]}`. -/
def shiftRight (opA : Word) (n : Nat) : Word := opA >>> n

/-- `{n{opA[15]}, opA[15:n]}`. -/
def shiftRightArith (opA : Word) (n : Nat) : Word := opA.sshiftRight n

/-- `{opA[15-n:0], opA[15:16-n]}`, the slice as 90_conflicts.md C7 corrects it. -/
def rotateLeft (opA : Word) (n : Nat) : Word := (opA <<< n) ||| (opA >>> (16 - n))

/-! The conditions of the jumps that read more than one flag (R161); UNDEFINED where a flag they read is. -/

/-- `(not C) or Z`: unsigned less or equal after CMP (R161; 90_conflicts.md C2 for the Z). -/
def State.condUnsignedLe (s : State) : Content Bool := Content.map₂ (fun c z => !c || z) s.flagC s.flagZ

/-- `S xor V`: signed less after CMP (R161). -/
def State.condSignedLt (s : State) : Content Bool := Content.map₂ (fun n v => n ^^ v) s.flagS s.flagV

/-- `(S xor V) or Z`: signed less or equal after CMP (R161). -/
def State.condSignedLe (s : State) : Content Bool :=
  Content.map₃ (fun n v z => (n ^^ v) || z) s.flagS s.flagV s.flagZ

end Sys2Proof.Machine
end

