-- ==== Sys2Proof/Machine/Operands.lean ====
section
/-! DEFINITION. The immediate and offset operands (30_encoding.md R86, R87; 40_arith_logic.md R110; 45_shift_rotate.md
R220), in short form and in long form. -/

namespace Sys2Proof.Machine

/-- `decode_imm_al` (R9). Row 3 is "TBD": the parameter IMM_AL_3, if there is one. -/
def immAl (imm3 : BitVec 3) : Option Word :=
  match imm3.toNat with
  | 0 => some 0x0000
  | 1 => some 0x0001
  | 2 => some 0x8000
  | 3 => Config.immAl3
  | 4 => some 0x00FF
  | 5 => some 0xFF00
  | 6 => some 0x7FFF
  | _ => some 0xFFFF

/-- `decode_imm_sr` (R9): 0 stands for 8. -/
def immSr (imm3 : BitVec 3) : Word :=
  match imm3.toNat with
  | 0 => 8
  | n => BitVec.ofNat 16 n

/-- The operand an optional table row gives; a row without a value is refused (R9, R110). -/
def tableOperand : Option Word → Except Fault (Content Word)
  | some v => .ok (.defined v)
  | none => .error .immAl3Undefined

/-- `{ext13, low}`, the operand of the long form (R86). It is not sign-extended. -/
def State.longOperand (s : State) (low : BitVec 3) : Content Word :=
  s.ext13.map fun e => (e ++ low : BitVec (13 + 3))

/-- The second operand of the arithmetic and logical immediates (R110). -/
def State.aluOperand (s : State) (imm3 : BitVec 3) : Except Fault (Content Word) :=
  match s.hasExt13 with
  | true => .ok (s.longOperand imm3)
  | false => tableOperand (immAl imm3)

/-- The amount of the shift and rotate immediates, before its range is checked (R220). -/
def State.shiftOperand (s : State) (imm3 : BitVec 3) : Content Word :=
  match s.hasExt13 with
  | true => s.longOperand imm3
  | false => .defined (immSr imm3)

/-- The operand of imm5 and off5 (R86, R87). -/
def State.operand5 (s : State) (field : BitVec 5) : Except Fault (Content Word) :=
  match s.hasExt13 with
  | true =>
    if field.extractLsb' 3 2 = 0#2 then .ok (s.longOperand (field.extractLsb' 0 3))
    else .error .longFormHighBits
  | false => .ok (.defined (field.signExtend 16))

/-- The operand of imm8 and off8 (R86, R87). -/
def State.operand8 (s : State) (field : BitVec 8) : Except Fault (Content Word) :=
  match s.hasExt13 with
  | true =>
    if field.extractLsb' 3 5 = 0#5 then .ok (s.longOperand (field.extractLsb' 0 3))
    else .error .longFormHighBits
  | false => .ok (.defined (field.signExtend 16))

/-- A shift or rotate amount is 0 to 15, else UNPREDICTABLE; it is not taken modulo 16 (R220). An UNDEFINED
amount may break the restriction and is treated so (R251). -/
def shiftAmount : Content Word → Except Fault Nat
  | .defined n => if n.toNat ≤ 15 then .ok n.toNat else .error .shiftAmountAbove15
  | .undefined => .error .shiftAmountAbove15

/-- What is added to W or loaded into W is a multiple of 8, else UNPREDICTABLE (R140). An UNDEFINED value may
break the restriction and is treated so (R251). -/
def windowValue : Content Word → Except Fault Word
  | .defined v => if v.extractLsb' 0 3 = 0#3 then .ok v else .error .windowNotMultipleOf8
  | .undefined => .error .windowNotMultipleOf8

/-- The base `pc + 1` of the PC-relative forms plus the offset (R160, R200, R152), wrapping. -/
def State.pcRelative (s : State) (off : Content Word) : Content Word := Content.map₂ (· + ·) s.nextPc off

end Sys2Proof.Machine
end

