-- ==== Sys2Proof/Machine/Arith.lean ====
section
/-! DEFINITION. Arithmetic, logic and compare instructions (40_arith_logic.md). -/

namespace Sys2Proof.Machine

/-- An arithmetic instruction on two registers. -/
def arithReg (f : Word → Word → AluOut) (rd ra rb : RegNum) (s : State) : Result :=
  .next (s.finishArith rd (Content.map₂ f (s.reg ra) (s.reg rb)))

/-- An arithmetic instruction on two registers and C. With C UNDEFINED all it writes is UNDEFINED (R112). -/
def arithRegCarry (f : Word → Word → Bool → AluOut) (rd ra rb : RegNum) (s : State) : Result :=
  .next (s.finishArith rd (Content.map₃ f (s.reg ra) (s.reg rb) s.flagC))

/-- An arithmetic instruction on a register and an immediate (R110). -/
def arithImm (f : Word → Word → AluOut) (rd ra : RegNum) (imm3 : BitVec 3) (s : State) : Result :=
  withOperand (s.aluOperand imm3) fun opB =>
    .next (s.finishArith rd (Content.map₂ f (s.reg ra) opB))

/-- An arithmetic instruction on a register, an immediate (R110) and C. -/
def arithImmCarry (f : Word → Word → Bool → AluOut) (rd ra : RegNum) (imm3 : BitVec 3) (s : State) :
    Result :=
  withOperand (s.aluOperand imm3) fun opB =>
    .next (s.finishArith rd (Content.map₃ f (s.reg ra) opB s.flagC))

/-- A logical instruction on two registers. -/
def logicReg (f : Word → Word → Word) (rd ra rb : RegNum) (s : State) : Result :=
  .next (s.finishLogic rd (Content.map₂ f (s.reg ra) (s.reg rb)))

/-- A logical instruction on a register and an immediate (R110). -/
def logicImm (f : Word → Word → Word) (rd ra : RegNum) (imm3 : BitVec 3) (s : State) : Result :=
  withOperand (s.aluOperand imm3) fun opB =>
    .next (s.finishLogic rd (Content.map₂ f (s.reg ra) opB))

/-- ADD (R114). -/
def execAdd (rd ra rb : RegNum) (s : State) : Result := arithReg (addOut · · false) rd ra rb s

/-- ADC (R112). -/
def execAdc (rd ra rb : RegNum) (s : State) : Result := arithRegCarry addOut rd ra rb s

/-- SUB (R124): a carry in of 1. -/
def execSub (rd ra rb : RegNum) (s : State) : Result := arithReg (subOut · · true) rd ra rb s

/-- SBB (R122): C is the not-borrow. -/
def execSbb (rd ra rb : RegNum) (s : State) : Result := arithRegCarry subOut rd ra rb s

/-- ADDI (R115). -/
def execAddi (rd ra : RegNum) (imm3 : BitVec 3) (s : State) : Result :=
  arithImm (addOut · · false) rd ra imm3 s

/-- ADCI (R113). -/
def execAdci (rd ra : RegNum) (imm3 : BitVec 3) (s : State) : Result := arithImmCarry addOut rd ra imm3 s

/-- SUBI (R125). -/
def execSubi (rd ra : RegNum) (imm3 : BitVec 3) (s : State) : Result :=
  arithImm (subOut · · true) rd ra imm3 s

/-- SBBI (R123). -/
def execSbbi (rd ra : RegNum) (imm3 : BitVec 3) (s : State) : Result := arithImmCarry subOut rd ra imm3 s

/-- CMP (R118): SUB without the register write. -/
def execCmp (ra rb : RegNum) (s : State) : Result :=
  .next ((s.setArithFlags (Content.map₂ (subOut · · true) (s.reg ra) (s.reg rb))).advance)

/-- CMPI (R119): SUBI without the register write. -/
def execCmpi (ra : RegNum) (imm3 : BitVec 3) (s : State) : Result :=
  withOperand (s.aluOperand imm3) fun opB =>
    .next ((s.setArithFlags (Content.map₂ (subOut · · true) (s.reg ra) opB)).advance)

/-- AND (R116). -/
def execAnd (rd ra rb : RegNum) (s : State) : Result := logicReg (· &&& ·) rd ra rb s

/-- OR (R120). -/
def execOr (rd ra rb : RegNum) (s : State) : Result := logicReg (· ||| ·) rd ra rb s

/-- XOR (R126). -/
def execXor (rd ra rb : RegNum) (s : State) : Result := logicReg (· ^^^ ·) rd ra rb s

/-- ANDI (R117). -/
def execAndi (rd ra : RegNum) (imm3 : BitVec 3) (s : State) : Result := logicImm (· &&& ·) rd ra imm3 s

/-- ORI (R121). -/
def execOri (rd ra : RegNum) (imm3 : BitVec 3) (s : State) : Result := logicImm (· ||| ·) rd ra imm3 s

/-- XORI (R127). -/
def execXori (rd ra : RegNum) (imm3 : BitVec 3) (s : State) : Result := logicImm (· ^^^ ·) rd ra imm3 s

end Sys2Proof.Machine
end

