-- ==== Sys2Proof/Machine/Jump.lean ====
section
/-! DEFINITION. Jump instructions (43_jumps.md). -/

namespace Sys2Proof.Machine

/-- Taken, to the target of R160, or not taken (R161). -/
def State.branch (s : State) (cond : Content Bool) (off : Content Word) : State :=
  if s.resolveBit cond then s.jump (s.pcRelative off) else s.advance

/-- A conditional jump (R160, R161). The long-form restriction holds taken or not. -/
def condJump (cond : Content Bool) (off8 : BitVec 8) (s : State) : Result :=
  withOperand (s.operand8 off8) fun off => .next (s.branch cond off)

/-- `x[Rd] <- pc + 1`, the link of JAL and JRAL (R163). -/
def State.link (s : State) (rd : RegNum) : State := s.setReg rd s.nextPc

/-- Where a jump through a table goes: to `table` plus the word at `table + index` (R180, R185), both wrapping. -/
def State.tableTarget (s : State) (table index : Content Word) : Content Word :=
  Content.map₂ (· + ·) table (s.memReadAt (Content.map₂ (· + ·) table index))

/-- J (R162). -/
def execJ (off8 : BitVec 8) (s : State) : Result :=
  withOperand (s.operand8 off8) fun off => .next (s.jump (s.pcRelative off))

/-- JN (R166): no effect, but the long-form restriction holds. -/
def execJn (off8 : BitVec 8) (s : State) : Result :=
  withOperand (s.operand8 off8) fun _ => .next s.advance

/-- JNZ (R171). -/
def execJnz (off8 : BitVec 8) (s : State) : Result := condJump (s.flagZ.map (!·)) off8 s

/-- JNE (R168). -/
def execJne (off8 : BitVec 8) (s : State) : Result := condJump (s.flagZ.map (!·)) off8 s

/-- JZ (R186). -/
def execJz (off8 : BitVec 8) (s : State) : Result := condJump s.flagZ off8 s

/-- JE (R165). -/
def execJe (off8 : BitVec 8) (s : State) : Result := condJump s.flagZ off8 s

/-- JNS (R170). -/
def execJns (off8 : BitVec 8) (s : State) : Result := condJump (s.flagS.map (!·)) off8 s

/-- JS (R175). -/
def execJs (off8 : BitVec 8) (s : State) : Result := condJump s.flagS off8 s

/-- JNC (R167). -/
def execJnc (off8 : BitVec 8) (s : State) : Result := condJump (s.flagC.map (!·)) off8 s

/-- JULT (R184). -/
def execJult (off8 : BitVec 8) (s : State) : Result := condJump (s.flagC.map (!·)) off8 s

/-- JC (R164). -/
def execJc (off8 : BitVec 8) (s : State) : Result := condJump s.flagC off8 s

/-- JUGE (R181). -/
def execJuge (off8 : BitVec 8) (s : State) : Result := condJump s.flagC off8 s

/-- JNO (R169). -/
def execJno (off8 : BitVec 8) (s : State) : Result := condJump (s.flagV.map (!·)) off8 s

/-- JO (R172). -/
def execJo (off8 : BitVec 8) (s : State) : Result := condJump s.flagV off8 s

/-- JUGT (R182). -/
def execJugt (off8 : BitVec 8) (s : State) : Result := condJump (s.condUnsignedLe.map (!·)) off8 s

/-- JULE (R183). -/
def execJule (off8 : BitVec 8) (s : State) : Result := condJump s.condUnsignedLe off8 s

/-- JSGE (R176). -/
def execJsge (off8 : BitVec 8) (s : State) : Result := condJump (s.condSignedLt.map (!·)) off8 s

/-- JSLT (R179). -/
def execJslt (off8 : BitVec 8) (s : State) : Result := condJump s.condSignedLt off8 s

/-- JSGT (R177). -/
def execJsgt (off8 : BitVec 8) (s : State) : Result := condJump (s.condSignedLe.map (!·)) off8 s

/-- JSLE (R178). -/
def execJsle (off8 : BitVec 8) (s : State) : Result := condJump s.condSignedLe off8 s

/-- JAL (R163). -/
def execJal (rd : RegNum) (off8 : BitVec 8) (s : State) : Result :=
  withOperand (s.operand8 off8) fun off => .next ((s.link rd).jump (s.pcRelative off))

/-- JR (R173): an absolute target, UNDEFINED where Rs is. -/
def execJr (rs : RegNum) (off5 : BitVec 5) (s : State) : Result :=
  withOperand (s.operand5 off5) fun off =>
    .next (s.jump (Content.map₂ (· + ·) (s.reg rs) off))

/-- JRAL (R174): Rb is read before Rd is written. -/
def execJral (rd rb : RegNum) (s : State) : Result :=
  .next ((s.link rd).jump (s.reg rb))

/-- JST (R180): the table PC-relative, the index in a register. -/
def execJst (rs : RegNum) (off5 : BitVec 5) (s : State) : Result :=
  withOperand (s.operand5 off5) fun off =>
    .next (s.jump (s.tableTarget (s.pcRelative off) (s.reg rs)))

/-- JVT (R185): the table in a register, the index constant. -/
def execJvt (rs : RegNum) (off5 : BitVec 5) (s : State) : Result :=
  withOperand (s.operand5 off5) fun off => .next (s.jump (s.tableTarget (s.reg rs) off))

end Sys2Proof.Machine
end

