-- ==== Sys2Proof/Machine/LoadStore.lean ====
section
/-! DEFINITION. Load and store instructions (44_load_store.md). -/

namespace Sys2Proof.Machine

/-- `x[Ra] + off`, the address of LD, ST, LDX and STX (R200), wrapping. -/
def State.baseAddr (s : State) (ra : RegNum) (off : Content Word) : Content Word :=
  Content.map₂ (· + ·) (s.reg ra) off

/-- `pc + 1 + off + x[Ra]`, the address of LDR and STR (R202, R206), wrapping. -/
def State.pcAddr (s : State) (ra : RegNum) (off : Content Word) : Content Word :=
  Content.map₂ (· + ·) (s.pcRelative off) (s.reg ra)

/-- Load a word of `mem` into Rd, and end. From an UNDEFINED address or word, Rd becomes UNDEFINED (R10, R201). -/
def State.finishLoad (s : State) (rd : RegNum) (addr : Content Word) : State :=
  (s.setReg rd (s.memReadAt addr)).advance

/-- Store Rs to `mem`, and end. An UNDEFINED address is some address (R10). -/
def State.finishStore (s : State) (rs : RegNum) (addr : Content Word) : State :=
  (s.memWrite (s.resolve .address addr) (s.reg rs)).advance

/-- One load cycle on the external bus, its answer to Rd, and end (R203). At an UNDEFINED address the cycle has some
address, and what comes back is UNDEFINED (R10). -/
def State.finishExtLoad (s : State) (rd : RegNum) (addr : Content Word) : State :=
  let a := s.resolve .address addr
  ((s.recordExtRead a).setReg rd (addr.map s.extAnswer)).advance

/-- One store cycle on the external bus, and end; the data of an UNDEFINED register is arbitrary (R207). -/
def State.finishExtStore (s : State) (rs : RegNum) (addr : Content Word) : State :=
  (s.extWrite (s.resolve .address addr) (s.resolve .data (s.reg rs))).advance

/-- LD (R201). -/
def execLd (rd ra : RegNum) (off5 : BitVec 5) (s : State) : Result :=
  withOperand (s.operand5 off5) fun off => .next (s.finishLoad rd (s.baseAddr ra off))

/-- LDR (R202). -/
def execLdr (rd ra : RegNum) (off5 : BitVec 5) (s : State) : Result :=
  withOperand (s.operand5 off5) fun off => .next (s.finishLoad rd (s.pcAddr ra off))

/-- ST (R205). -/
def execSt (rs ra : RegNum) (off5 : BitVec 5) (s : State) : Result :=
  withOperand (s.operand5 off5) fun off => .next (s.finishStore rs (s.baseAddr ra off))

/-- STR (R206). -/
def execStr (rs ra : RegNum) (off5 : BitVec 5) (s : State) : Result :=
  withOperand (s.operand5 off5) fun off => .next (s.finishStore rs (s.pcAddr ra off))

/-- LDX (R203). -/
def execLdx (rd ra : RegNum) (off5 : BitVec 5) (s : State) : Result :=
  withOperand (s.operand5 off5) fun off => .next (s.finishExtLoad rd (s.baseAddr ra off))

/-- LDXA (R204). -/
def execLdxa (rd : RegNum) (off8 : BitVec 8) (s : State) : Result :=
  withOperand (s.operand8 off8) fun off => .next (s.finishExtLoad rd off)

/-- STX (R207). -/
def execStx (rs ra : RegNum) (off5 : BitVec 5) (s : State) : Result :=
  withOperand (s.operand5 off5) fun off => .next (s.finishExtStore rs (s.baseAddr ra off))

/-- STXA (R208). -/
def execStxa (rs : RegNum) (off8 : BitVec 8) (s : State) : Result :=
  withOperand (s.operand8 off8) fun off => .next (s.finishExtStore rs off)

end Sys2Proof.Machine
end

