-- ==== Sys2Proof/Machine/Move.lean ====
section
/-! DEFINITION. EXTI and the move-immediate instructions (42_exti_moves.md). -/

namespace Sys2Proof.Machine

/-- EXTI (R150). -/
def execExti (imm13 : BitVec 13) (s : State) : Result := .next (s.extend imm13)

/-- MOVI (R151). -/
def execMovi (rd : RegNum) (imm8 : BitVec 8) (s : State) : Result :=
  withOperand (s.operand8 imm8) fun imm => .next ((s.setReg rd imm).advance)

/-- MOVR (R152). -/
def execMovr (rd : RegNum) (off8 : BitVec 8) (s : State) : Result :=
  withOperand (s.operand8 off8) fun off => .next ((s.setReg rd (s.pcRelative off)).advance)

end Sys2Proof.Machine
end

