-- ==== Sys2Proof/Machine/Shift.lean ====
section
/-! DEFINITION. Shift and rotate instructions (45_shift_rotate.md). -/

namespace Sys2Proof.Machine

/-- A shift or rotate by the amount in a register (R220). -/
def shiftReg (f : Word → Nat → Word) (rd ra rb : RegNum) (s : State) : Result :=
  withOperand (shiftAmount (s.reg rb)) fun n => .next (s.finishLogic rd ((s.reg ra).map (f · n)))

/-- A shift or rotate by an immediate amount (R220). -/
def shiftImm (f : Word → Nat → Word) (rd ra : RegNum) (imm3 : BitVec 3) (s : State) : Result :=
  withOperand (shiftAmount (s.shiftOperand imm3)) fun n =>
    .next (s.finishLogic rd ((s.reg ra).map (f · n)))

/-- SLL (R223). -/
def execSll (rd ra rb : RegNum) (s : State) : Result := shiftReg shiftLeft rd ra rb s

/-- SLLI (R224). -/
def execSlli (rd ra : RegNum) (imm3 : BitVec 3) (s : State) : Result := shiftImm shiftLeft rd ra imm3 s

/-- ROL (R221). -/
def execRol (rd ra rb : RegNum) (s : State) : Result := shiftReg rotateLeft rd ra rb s

/-- ROLI (R222). -/
def execRoli (rd ra : RegNum) (imm3 : BitVec 3) (s : State) : Result := shiftImm rotateLeft rd ra imm3 s

/-- SRL (R227). -/
def execSrl (rd ra rb : RegNum) (s : State) : Result := shiftReg shiftRight rd ra rb s

/-- SRLI (R228). -/
def execSrli (rd ra : RegNum) (imm3 : BitVec 3) (s : State) : Result := shiftImm shiftRight rd ra imm3 s

/-- SRA (R225). -/
def execSra (rd ra rb : RegNum) (s : State) : Result := shiftReg shiftRightArith rd ra rb s

/-- SRAI (R226). -/
def execSrai (rd ra : RegNum) (imm3 : BitVec 3) (s : State) : Result := shiftImm shiftRightArith rd ra imm3 s

end Sys2Proof.Machine
end

