-- ==== Sys2Proof/Machine/Window.lean ====
section
/-! DEFINITION. Window instructions (41_window.md). -/

namespace Sys2Proof.Machine

/-- W becomes `t`, and Rd of the NEW window the old W (R140). -/
def State.exchangeWindow (s : State) (t : Word) (rd : RegNum) : State :=
  (s.setWindow t).setReg rd (.defined s.w)

/-- ADJW (R141). -/
def execAdjw (imm5 : BitVec 5) (s : State) : Result :=
  withOperand (s.operand5 imm5) fun imm =>
    withOperand (windowValue imm) fun d => .next ((s.setWindow (s.w + d)).advance)

/-- LDW (R142). -/
def execLdw (rd : RegNum) (imm5 : BitVec 5) (s : State) : Result :=
  withOperand (s.operand5 imm5) fun imm =>
    withOperand (windowValue imm) fun d => .next ((s.exchangeWindow (s.w + d) rd).advance)

/-- STW (R143): Rb is read through the old W. -/
def execStw (rb : RegNum) (s : State) : Result :=
  withOperand (windowValue (s.reg rb)) fun v => .next ((s.setWindow v).advance)

/-- XCHW (R144): Rb is read through the old W, Rd written through the new one. -/
def execXchw (rd rb : RegNum) (s : State) : Result :=
  withOperand (windowValue (s.reg rb)) fun v => .next ((s.exchangeWindow v rd).advance)

end Sys2Proof.Machine
end

