-- ==== Sys2Proof/Machine/Step.lean ====
section
/-! DEFINITION. One step of the machine (00_scope.md R13): fetch, decode, execute. -/

namespace Sys2Proof.Machine

/-- Fetch the word at PC (R53), decode it and run it; a word that is no instruction is UNPREDICTABLE (R88).
The machine never stops by itself: HALT (R259) is a predicate on states (`State.halted`). -/
def step (s : State) : Host.Outcome State Fault Refusal :=
  match decode s.fetch with
  | .ok i => exec i s
  | .error _ => .fault .encodingNotPresent

/-- The state with the instruction word `w` at PC, where the next step fetches (R53). -/
def State.withFetchWord (s : State) (nbits w : Nat) : State :=
  { s with mem := s.mem.insert s.fetchAddress.toNat (tableWord nbits w) }

end Sys2Proof.Machine
end

