-- ==== Sys2Proof/Machine/Assembly.lean ====
section
/-! DEFINITION. The assembler's side of the instruction set (30_encoding.md R93, R94): the text of an instruction as
mnemonic and operands, and how a 16-bit operand or a label becomes a field, with EXTI where the short form does not reach it.
The hardware never sees it. -/

namespace Sys2Proof.Machine

/-- An operand of an assembly line: a register R0 to R7, or a number (R93). A label stands for the number that
`labelOffset` makes of it. -/
inductive AsmOperand where
  | reg (r : RegNum)
  | number (n : Int)
deriving DecidableEq, Repr

/-- One line of assembly: the mnemonic in upper case, then the operands, destination first (R93). -/
structure AsmLine where
  mnemonic : String
  operands : List AsmOperand
deriving DecidableEq, Repr

/-- The line of an instruction, its field read as the number it stands for in short form: signed, but for the tables
of imm3 and for EXTI. The row "TBD" of the arithmetic and logical immediates stands for IMM_AL_3, and where there is
none the line has no number. -/
def assemblyOf (i : Instr) : AsmLine :=
  let alu : BitVec 3 → List AsmOperand := fun imm3 =>
    match immAl imm3 with
    | some v => [.number v.toNat]
    | none => []
  match i with
  | .and rd ra rb => ⟨"AND", [.reg rd, .reg ra, .reg rb]⟩
  | .or rd ra rb => ⟨"OR", [.reg rd, .reg ra, .reg rb]⟩
  | .xor rd ra rb => ⟨"XOR", [.reg rd, .reg ra, .reg rb]⟩
  | .cmp ra rb => ⟨"CMP", [.reg ra, .reg rb]⟩
  | .andi rd ra imm3 => ⟨"ANDI", [.reg rd, .reg ra] ++ alu imm3⟩
  | .ori rd ra imm3 => ⟨"ORI", [.reg rd, .reg ra] ++ alu imm3⟩
  | .xori rd ra imm3 => ⟨"XORI", [.reg rd, .reg ra] ++ alu imm3⟩
  | .cmpi ra imm3 => ⟨"CMPI", [.reg ra] ++ alu imm3⟩
  | .add rd ra rb => ⟨"ADD", [.reg rd, .reg ra, .reg rb]⟩
  | .adc rd ra rb => ⟨"ADC", [.reg rd, .reg ra, .reg rb]⟩
  | .sub rd ra rb => ⟨"SUB", [.reg rd, .reg ra, .reg rb]⟩
  | .sbb rd ra rb => ⟨"SBB", [.reg rd, .reg ra, .reg rb]⟩
  | .addi rd ra imm3 => ⟨"ADDI", [.reg rd, .reg ra] ++ alu imm3⟩
  | .adci rd ra imm3 => ⟨"ADCI", [.reg rd, .reg ra] ++ alu imm3⟩
  | .subi rd ra imm3 => ⟨"SUBI", [.reg rd, .reg ra] ++ alu imm3⟩
  | .sbbi rd ra imm3 => ⟨"SBBI", [.reg rd, .reg ra] ++ alu imm3⟩
  | .sll rd ra rb => ⟨"SLL", [.reg rd, .reg ra, .reg rb]⟩
  | .rol rd ra rb => ⟨"ROL", [.reg rd, .reg ra, .reg rb]⟩
  | .srl rd ra rb => ⟨"SRL", [.reg rd, .reg ra, .reg rb]⟩
  | .sra rd ra rb => ⟨"SRA", [.reg rd, .reg ra, .reg rb]⟩
  | .slli rd ra imm3 => ⟨"SLLI", [.reg rd, .reg ra, .number (immSr imm3).toNat]⟩
  | .roli rd ra imm3 => ⟨"ROLI", [.reg rd, .reg ra, .number (immSr imm3).toNat]⟩
  | .srli rd ra imm3 => ⟨"SRLI", [.reg rd, .reg ra, .number (immSr imm3).toNat]⟩
  | .srai rd ra imm3 => ⟨"SRAI", [.reg rd, .reg ra, .number (immSr imm3).toNat]⟩
  | .ld rd ra off5 => ⟨"LD", [.reg rd, .reg ra, .number off5.toInt]⟩
  | .ldr rd ra off5 => ⟨"LDR", [.reg rd, .reg ra, .number off5.toInt]⟩
  | .st rs ra off5 => ⟨"ST", [.reg rs, .reg ra, .number off5.toInt]⟩
  | .str rs ra off5 => ⟨"STR", [.reg rs, .reg ra, .number off5.toInt]⟩
  | .ldx rd ra off5 => ⟨"LDX", [.reg rd, .reg ra, .number off5.toInt]⟩
  | .ldxa rd off8 => ⟨"LDXA", [.reg rd, .number off8.toInt]⟩
  | .stx rs ra off5 => ⟨"STX", [.reg rs, .reg ra, .number off5.toInt]⟩
  | .stxa rs off8 => ⟨"STXA", [.reg rs, .number off8.toInt]⟩
  | .movi rd imm8 => ⟨"MOVI", [.reg rd, .number imm8.toInt]⟩
  | .movr rd off8 => ⟨"MOVR", [.reg rd, .number off8.toInt]⟩
  | .stw rb => ⟨"STW", [.reg rb]⟩
  | .xchw rd rb => ⟨"XCHW", [.reg rd, .reg rb]⟩
  | .adjw imm5 => ⟨"ADJW", [.number imm5.toInt]⟩
  | .ldw rd imm5 => ⟨"LDW", [.reg rd, .number imm5.toInt]⟩
  | .jr rs off5 => ⟨"JR", [.reg rs, .number off5.toInt]⟩
  | .jral rd rb => ⟨"JRAL", [.reg rd, .reg rb]⟩
  | .jvt rs off5 => ⟨"JVT", [.reg rs, .number off5.toInt]⟩
  | .jst rs off5 => ⟨"JST", [.reg rs, .number off5.toInt]⟩
  | .jal rd off8 => ⟨"JAL", [.reg rd, .number off8.toInt]⟩
  | .jnz off8 => ⟨"JNZ", [.number off8.toInt]⟩
  | .jne off8 => ⟨"JNE", [.number off8.toInt]⟩
  | .jns off8 => ⟨"JNS", [.number off8.toInt]⟩
  | .jnc off8 => ⟨"JNC", [.number off8.toInt]⟩
  | .jult off8 => ⟨"JULT", [.number off8.toInt]⟩
  | .jno off8 => ⟨"JNO", [.number off8.toInt]⟩
  | .jugt off8 => ⟨"JUGT", [.number off8.toInt]⟩
  | .jsge off8 => ⟨"JSGE", [.number off8.toInt]⟩
  | .jsgt off8 => ⟨"JSGT", [.number off8.toInt]⟩
  | .jn off8 => ⟨"JN", [.number off8.toInt]⟩
  | .jz off8 => ⟨"JZ", [.number off8.toInt]⟩
  | .je off8 => ⟨"JE", [.number off8.toInt]⟩
  | .js off8 => ⟨"JS", [.number off8.toInt]⟩
  | .jc off8 => ⟨"JC", [.number off8.toInt]⟩
  | .juge off8 => ⟨"JUGE", [.number off8.toInt]⟩
  | .jo off8 => ⟨"JO", [.number off8.toInt]⟩
  | .jule off8 => ⟨"JULE", [.number off8.toInt]⟩
  | .jslt off8 => ⟨"JSLT", [.number off8.toInt]⟩
  | .jsle off8 => ⟨"JSLE", [.number off8.toInt]⟩
  | .j off8 => ⟨"J", [.number off8.toInt]⟩
  | .exti imm13 => ⟨"EXTI", [.number imm13.toNat]⟩

/-- The number a label stands for in a PC-relative instruction at address `a` (R94). -/
def labelOffset (a label : Word) : Word := label - (a + 1)

/-- The EXTI that makes the next instruction's operand `v`, with that instruction's field `longField v` (R94). -/
def extendFor (v : Word) : Instr := .exti (v.extractLsb' 3 13)

/-- The low three bits of a long-form operand, the next instruction's own field (R94). -/
def longField (v : Word) : BitVec 3 := v.extractLsb' 0 3

/-- An instruction with imm5 or off5 for the operand `v`: the short form where it reaches `v`, else with EXTI (R94;
92_eei_decisions.md D22 for the preference). -/
def assemble5 (mk : BitVec 5 → Instr) (v : Word) : List Instr :=
  if (v.extractLsb' 0 5).signExtend 16 = v then [mk (v.extractLsb' 0 5)]
  else [extendFor v, mk (0#2 ++ longField v)]

/-- The same for imm8 and off8. -/
def assemble8 (mk : BitVec 8 → Instr) (v : Word) : List Instr :=
  if (v.extractLsb' 0 8).signExtend 16 = v then [mk (v.extractLsb' 0 8)]
  else [extendFor v, mk (0#5 ++ longField v)]

/-- The same for imm3 of an arithmetic or logical immediate: the short form for the constants of decode_imm_al (R9),
IMM_AL_3 among them where the configuration supplies it (D22). DESIGN CHOICE (log 33): an IMM_AL_3 that equals another
constant of the table leaves two short forms, and this one takes the other constant's row, never row 3. -/
def assembleAlu (mk : BitVec 3 → Instr) (v : Word) : List Instr :=
  match v.toNat with
  | 0x0000 => [mk 0]
  | 0x0001 => [mk 1]
  | 0x8000 => [mk 2]
  | 0x00FF => [mk 4]
  | 0xFF00 => [mk 5]
  | 0x7FFF => [mk 6]
  | 0xFFFF => [mk 7]
  | _ => if Config.immAl3 = some v then [mk 3] else [extendFor v, mk (longField v)]

/-- The same for imm3 of a shift or rotate: the short form for 1 to 8 (R9). -/
def assembleShift (mk : BitVec 3 → Instr) (v : Word) : List Instr :=
  if 1 ≤ v.toNat ∧ v.toNat ≤ 8 then [mk (v.extractLsb' 0 3)] else [extendFor v, mk (longField v)]

/-- A jump at address `a` to a label. With EXTI the jump is the second word, and its offset counts from there (R94). -/
def assembleLabel (mk : BitVec 8 → Instr) (a label : Word) : List Instr :=
  let off := labelOffset a label
  if (off.extractLsb' 0 8).signExtend 16 = off then [mk (off.extractLsb' 0 8)]
  else
    let far := labelOffset (a + 1) label
    [extendFor far, mk (0#5 ++ longField far)]

end Sys2Proof.Machine
end

