-- ==== Sys2Proof/Machine/Pseudo.lean ====
section
/-! DEFINITION. The pseudo-instructions (46_pseudo.md R240 to R242). The hardware never sees them; their behaviour is
that of the instructions they stand for. -/

namespace Sys2Proof.Machine

/-- The three mnemonics that have no encoding. An amount of RORI is 0 to 15 (R241). -/
inductive Pseudo where
  | mov (rd rs : RegNum)
  | rori (rd ra : RegNum) (amount : Fin 16)
  | xchg (ra rb : RegNum)
deriving DecidableEq, Repr

/-- ROLI by an amount: short form for 1 to 8, else with EXTI (R241, R94). -/
def roliWith (rd ra : RegNum) (amount : Nat) : List Instr :=
  assembleShift (.roli rd ra) (BitVec.ofNat 16 amount)

/-- The instructions a pseudo-instruction stands for (R240, R241, R242). -/
def Pseudo.expand : Pseudo → List Instr
  | .mov rd rs => if rd = rs then [] else [.and rd rs rs]
  | .rori rd ra amount => roliWith rd ra (if amount.val = 0 then 0 else 16 - amount.val)
  | .xchg ra rb => if ra = rb then [] else [.xor ra ra rb, .xor rb rb ra, .xor ra ra rb]

end Sys2Proof.Machine
end

