-- ==== Sys2Proof/Safety.lean ====
section
/-! DEFINITION. What claims speak of: the end of a run (60_exceptions.md R259), safe runs (R252), the invariant of
every run (10_state.md R27, R33), and what an instruction leaves as it was (R34). -/

namespace Sys2Proof.Machine

/-- HALT, the default of 92_eei_decisions.md D18 (R259): the word at PC is J to itself, 0xBFFF, and has_ext13 = 0.
DESIGN CHOICE (log 34): where PC, or the word at PC, is UNDEFINED the state is not halted, and nothing is drawn. -/
def State.halted (s : State) : Bool :=
  !s.hasExt13 && (s.memReadAt s.pc == .defined 0xBFFF)

/-- The final state of a run of at most `n` steps: the first halted one. A run that reaches an UNPREDICTABLE
condition has none (R252). -/
def runToHalt : Nat → State → Option State
  | 0, s => if s.halted then some s else none
  | n + 1, s =>
    if s.halted then some s
    else match step s with
      | .next t => runToHalt n t
      | .fault _ => none
      | .refused _ => none

/-- The first `n` steps reach no condition of R251. -/
def State.safeFor (s : State) (n : Nat) : Prop := ∃ t, Sys2Proof.core.run n s = .next t

/-- Run a straight list of instructions, each from the state the one before left. -/
def execAll : List Instr → State → Result
  | [], s => .next s
  | i :: rest, s =>
    match exec i s with
    | .next t => execAll rest t
    | .fault f => .fault f
    | .refused r => .refused r

/-- What holds of every state of a run: memory in its canonical form, W a multiple of 8 (R27), and ext13
defined exactly while has_ext13 = 1 (R33). -/
structure State.Inv (s : State) : Prop where
  memory : s.mem.wf = true
  window : s.w.toNat % 8 = 0
  prefix13 : s.ext13.isDefined = s.hasExt13

end Sys2Proof.Machine

/-! ## The terms of the claims

What an instruction leaves as it was, and the values the rules give, written as exact arithmetic on natural
numbers and integers, not with the model's own operations. -/

namespace Sys2Proof.Claims

open Sys2Proof.Machine

/-- Every word of `mem` reads as before. -/
def SameMemory (s t : State) : Prop := ∀ a : Word, t.memRead a = s.memRead a

/-- Every word of `mem` but the one at `a` reads as before. -/
def SameMemoryExcept (s t : State) (a : Word) : Prop := ∀ b : Word, b ≠ a → t.memRead b = s.memRead b

/-- The four flags are as before. -/
def SameFlags (s t : State) : Prop :=
  t.flagZ = s.flagZ ∧ t.flagS = s.flagS ∧ t.flagC = s.flagC ∧ t.flagV = s.flagV

/-- No cycle on the external bus. -/
def NoBusCycle (s t : State) : Prop := t.extTrace = s.extTrace

/-- The epilogue of R33: ext13 UNDEFINED, has_ext13 = 0. -/
def ExtCleared (t : State) : Prop := t.ext13 = .undefined ∧ t.hasExt13 = false

/-- The instruction changes neither W nor `mem` and does no bus cycle: it writes PC and perhaps flags. -/
def WritesNoWord (s t : State) : Prop := SameMemory s t ∧ t.w = s.w ∧ NoBusCycle s t ∧ ExtCleared t

/-- The instruction writes `v` to Rd and no other word, leaves W alone and does no bus cycle. -/
def WritesRegister (s t : State) (rd : RegNum) (v : Content Word) : Prop :=
  t.reg rd = v ∧ SameMemoryExcept s t (s.regAddr rd) ∧ t.w = s.w ∧ NoBusCycle s t ∧ ExtCleared t

/-! ### Operands -/

/-- `{ext13, low}`: eight times ext13 plus the three bits (R86). -/
def longValue (s : State) (low : BitVec 3) : Content Word :=
  s.ext13.map fun e => BitVec.ofNat 16 (8 * e.toNat + low.toNat)

/-- The rows of decode_imm_al that have a value (R9); the entry of row 3 is never used. -/
def aluTable (imm3 : BitVec 3) : Word :=
  [0x0000, 0x0001, 0x8000, 0x0000, 0x00FF, 0xFF00, 0x7FFF, 0xFFFF].getD imm3.toNat 0

/-- The second operand of an arithmetic or logical immediate whose row has a value (R110). -/
def aluValue (s : State) (imm3 : BitVec 3) : Content Word :=
  if s.hasExt13 then longValue s imm3 else .defined (aluTable imm3)

/-- The immediate is not the "TBD" row in short form (R110). -/
def AluFieldOk (s : State) (imm3 : BitVec 3) : Prop := s.hasExt13 = true ∨ imm3.toNat ≠ 3

/-- The amount of a shift or rotate immediate (R220): in short form 0 stands for 8. -/
def shiftValue (s : State) (imm3 : BitVec 3) : Content Word :=
  if s.hasExt13 then longValue s imm3
  else .defined (BitVec.ofNat 16 (if imm3.toNat = 0 then 8 else imm3.toNat))

/-- The operand of imm5 and off5: the field as a signed number, or the long form (R86). -/
def value5 (s : State) (f : BitVec 5) : Content Word :=
  if s.hasExt13 then longValue s (f.extractLsb' 0 3) else .defined (BitVec.ofInt 16 f.toInt)

/-- The operand of imm8 and off8: the field as a signed number, or the long form (R86). -/
def value8 (s : State) (f : BitVec 8) : Content Word :=
  if s.hasExt13 then longValue s (f.extractLsb' 0 3) else .defined (BitVec.ofInt 16 f.toInt)

/-- In long form the bits of imm5 or off5 above bit 2 are zero (R87). -/
def Field5Ok (s : State) (f : BitVec 5) : Prop := s.hasExt13 = true → f.toNat < 8

/-- In long form the bits of imm8 or off8 above bit 2 are zero (R87). -/
def Field8Ok (s : State) (f : BitVec 8) : Prop := s.hasExt13 = true → f.toNat < 8

/-! ### Results -/

/-- The word and flags of the sum a + b + c (R111): the word modulo 65536, Z and S of the word, C = the
unsigned sum exceeds 0xFFFF, V = the signed sum is outside -32768 to 32767. -/
def SumFlags (t : State) (a b : Content Word) (c : Content Bool) : Prop :=
  t.flagZ = Content.map₃ (fun x y k => decide ((x.toNat + y.toNat + k.toNat) % 65536 = 0)) a b c ∧
  t.flagS = Content.map₃ (fun x y k => decide (32768 ≤ (x.toNat + y.toNat + k.toNat) % 65536)) a b c ∧
  t.flagC = Content.map₃ (fun x y k => decide (65536 ≤ x.toNat + y.toNat + k.toNat)) a b c ∧
  t.flagV = Content.map₃ (fun x y k =>
    decide (x.toInt + y.toInt + (k.toNat : Int) < -32768 ∨ 32767 < x.toInt + y.toInt + (k.toNat : Int))) a b c

/-- The sum modulo 65536 (R111). -/
def sumWord (a b : Content Word) (c : Content Bool) : Content Word :=
  Content.map₃ (fun x y k => BitVec.ofNat 16 (x.toNat + y.toNat + k.toNat)) a b c

/-- The flags of the difference a - b - (1 - c) (R111): C = no borrow, V = the signed difference overflowed. -/
def DiffFlags (t : State) (a b : Content Word) (c : Content Bool) : Prop :=
  t.flagZ = Content.map₃ (fun x y k => decide ((65536 + x.toNat - y.toNat - (!k).toNat) % 65536 = 0)) a b c ∧
  t.flagS = Content.map₃ (fun x y k =>
    decide (32768 ≤ (65536 + x.toNat - y.toNat - (!k).toNat) % 65536)) a b c ∧
  t.flagC = Content.map₃ (fun x y k => decide (y.toNat + (!k).toNat ≤ x.toNat)) a b c ∧
  t.flagV = Content.map₃ (fun x y k =>
    decide (x.toInt - y.toInt - ((!k).toNat : Int) < -32768 ∨ 32767 < x.toInt - y.toInt - ((!k).toNat : Int))) a b c

/-- The difference modulo 65536 (R111). -/
def diffWord (a b : Content Word) (c : Content Bool) : Content Word :=
  Content.map₃ (fun x y k => BitVec.ofNat 16 (65536 + x.toNat - y.toNat - (!k).toNat)) a b c

/-- The flags after a logical, shift or rotate instruction with result `r` (R30): C and V are UNDEFINED. -/
def LogicFlags (t : State) (r : Content Word) : Prop :=
  t.flagZ = r.map (fun x => decide (x.toNat = 0)) ∧
  t.flagS = r.map (fun x => decide (32768 ≤ x.toNat)) ∧
  t.flagC = .undefined ∧ t.flagV = .undefined

/-- SLL by n (R220). -/
def sllWord (n : Nat) (x : Word) : Word := BitVec.ofNat 16 (x.toNat * 2 ^ n % 65536)

/-- SRL by n (R220). -/
def srlWord (n : Nat) (x : Word) : Word := BitVec.ofNat 16 (x.toNat / 2 ^ n)

/-- SRA by n (R220). -/
def sraWord (n : Nat) (x : Word) : Word :=
  BitVec.ofNat 16 (x.toNat / 2 ^ n + (if 32768 ≤ x.toNat then 65536 - 2 ^ (16 - n) else 0))

/-- ROL by n (R220). -/
def rolWord (n : Nat) (x : Word) : Word :=
  if n = 0 then x else BitVec.ofNat 16 (x.toNat * 2 ^ n % 65536 + x.toNat / 2 ^ (16 - n))

/-- The sum of two addresses or words, modulo 65536 (R23, R50). -/
def addWords (a b : Content Word) : Content Word :=
  Content.map₂ (fun x y => BitVec.ofNat 16 (x.toNat + y.toNat)) a b

/-- PC plus n, modulo 65536 (R22); UNDEFINED where PC is (R10). -/
def pcPlus (s : State) (n : Nat) : Content Word := s.pc.map fun p => BitVec.ofNat 16 (p.toNat + n)

/-- The word of `mem` at an address; UNDEFINED where the address is (R10). -/
def wordAt (s : State) : Content Word → Content Word
  | .defined a => s.memRead a
  | .undefined => .undefined

/-! ### Shapes of statements -/

/-- `w`, and no other word, is the instruction `i`. -/
def IsWordOf (w : Word) (i : Instr) : Prop := ∀ x : Word, decode x = .ok i ↔ x = w

/-- Where `ok` holds the instruction answers a next state that has `P`; where it does not, it stops with `f`. -/
def CompletesUnless (ok : Prop) (r : Result) (f : Fault) (P : State → Prop) : Prop :=
  (ok → ∃ t, r = .next t ∧ P t) ∧ (¬ ok → r = .fault f)

/-- The "TBD" row in short form (R110): refused where the configuration gives no IMM_AL_3, and the same as the
long form with that operand where it gives one. -/
def RowThree (s : State) (mk : BitVec 3 → Instr) : Prop :=
  s.hasExt13 = false →
    exec (mk 3#3) s =
      match Config.immAl3 with
      | none => .fault .immAl3Undefined
      | some v =>
        exec (mk (v.extractLsb' 0 3)) { s with hasExt13 := true, ext13 := .defined (v.extractLsb' 3 13) }

/-- PC goes to `pc + 1 + off` (R160), modulo 65536; it is UNDEFINED where a part of that is (R10). -/
def JumpsTo (s t : State) (off : Content Word) : Prop := t.pc = addWords (pcPlus s 1) off

/-- A conditional jump (R160, R161): taken or not as the condition says, either way where it reads an UNDEFINED
flag; nothing else changes. -/
def Conditional (mk : BitVec 8 → Instr) (taken : State → Content Bool) : Prop :=
  ∀ (s : State) (off8 : BitVec 8),
    CompletesUnless (Field8Ok s off8) (exec (mk off8) s) .longFormHighBits fun t =>
      WritesNoWord s t ∧ SameFlags s t ∧
      (taken s = .defined true → JumpsTo s t (value8 s off8)) ∧
      (taken s = .defined false → t.pc = pcPlus s 1) ∧
      (taken s = .undefined → JumpsTo s t (value8 s off8) ∨ t.pc = pcPlus s 1)

/-! ### The conditions of R251 -/

/-- A defined value that satisfies `p`. An UNDEFINED one may not (R251). -/
def Surely (c : Content Word) (p : Nat → Prop) : Prop := ∃ v : Word, c = .defined v ∧ p v.toNat

/-- The amount an instruction shifts or rotates by (R220). -/
def shiftAmountRead (s : State) : Instr → Option (Content Word)
  | .sll _ _ rb => some (s.reg rb)
  | .rol _ _ rb => some (s.reg rb)
  | .srl _ _ rb => some (s.reg rb)
  | .sra _ _ rb => some (s.reg rb)
  | .slli _ _ imm3 => some (shiftValue s imm3)
  | .roli _ _ imm3 => some (shiftValue s imm3)
  | .srli _ _ imm3 => some (shiftValue s imm3)
  | .srai _ _ imm3 => some (shiftValue s imm3)
  | _ => none

/-- What an instruction adds to W or loads into it (R140). -/
def windowValueRead (s : State) : Instr → Option (Content Word)
  | .adjw imm5 => some (value5 s imm5)
  | .ldw _ imm5 => some (value5 s imm5)
  | .stw rb => some (s.reg rb)
  | .xchw _ rb => some (s.reg rb)
  | _ => none

/-- `long_form_high_bits` (R251). -/
def LongFormHighBits (s : State) (i : Instr) : Prop :=
  s.hasExt13 = true ∧
    ((∃ f, i.operandField = .window f ∧ 8 ≤ f.toNat) ∨ (∃ f, i.operandField = .five f ∧ 8 ≤ f.toNat) ∨
      ∃ f, i.operandField = .eight f ∧ 8 ≤ f.toNat)

/-- `window_not_multiple_of_8` (R251), tested after the long form's high bits (R253). -/
def WindowNotMultipleOf8 (s : State) (i : Instr) : Prop :=
  ¬ LongFormHighBits s i ∧ ∃ c, windowValueRead s i = some c ∧ ¬ Surely c (· % 8 = 0)

/-- `shift_amount_above_15` (R251). -/
def ShiftAmountAbove15 (s : State) (i : Instr) : Prop :=
  ∃ c, shiftAmountRead s i = some c ∧ ¬ Surely c (· ≤ 15)

/-- `imm_al_3_undefined` (R251). -/
def ImmAl3Undefined (s : State) (i : Instr) : Prop :=
  s.hasExt13 = false ∧ i.operandField = .alu 3#3 ∧ Config.immAl3 = none

/-- The words that are no instruction: the nine rows of R88's table. -/
def NotPresent (w : Word) : Prop :=
  let op := (w.extractLsb' 11 5).toNat
  let rd := (w.extractLsb' 8 3).toNat
  let sub := (w.extractLsb' 5 3).toNat
  let ty := (w.extractLsb' 3 2).toNat
  (op = 6 ∨ op = 7) ∨ (op = 18 ∨ op = 19) ∨ 28 ≤ op ∨
  ((op = 0 ∨ op = 1) ∧ ty = 3 ∧ rd ≠ 0) ∨
  (op = 20 ∧ sub = 0 ∧ rd ≠ 0) ∨ (op = 20 ∧ sub = 0 ∧ ty ≠ 0) ∨
  (op = 20 ∧ sub = 1 ∧ ty ≠ 0) ∨ (op = 20 ∧ sub = 2 ∧ rd ≠ 0) ∨ (op = 20 ∧ sub = 5 ∧ ty ≠ 0)

/-! ### Families of instructions -/

/-- The families of the instruction files. -/
inductive Family where
  | arith | compare | logic | shift | load | store | busLoad | busStore | move | window | jump | link | exti
deriving DecidableEq, Repr

/-- The family of an instruction: `link` holds the two jumps that write a register. -/
def familyOf : Instr → Family
  | .and _ _ _ => .logic
  | .or _ _ _ => .logic
  | .xor _ _ _ => .logic
  | .cmp _ _ => .compare
  | .andi _ _ _ => .logic
  | .ori _ _ _ => .logic
  | .xori _ _ _ => .logic
  | .cmpi _ _ => .compare
  | .add _ _ _ => .arith
  | .adc _ _ _ => .arith
  | .sub _ _ _ => .arith
  | .sbb _ _ _ => .arith
  | .addi _ _ _ => .arith
  | .adci _ _ _ => .arith
  | .subi _ _ _ => .arith
  | .sbbi _ _ _ => .arith
  | .sll _ _ _ => .shift
  | .rol _ _ _ => .shift
  | .srl _ _ _ => .shift
  | .sra _ _ _ => .shift
  | .slli _ _ _ => .shift
  | .roli _ _ _ => .shift
  | .srli _ _ _ => .shift
  | .srai _ _ _ => .shift
  | .ld _ _ _ => .load
  | .ldr _ _ _ => .load
  | .st _ _ _ => .store
  | .str _ _ _ => .store
  | .ldx _ _ _ => .busLoad
  | .ldxa _ _ => .busLoad
  | .stx _ _ _ => .busStore
  | .stxa _ _ => .busStore
  | .movi _ _ => .move
  | .movr _ _ => .move
  | .stw _ => .window
  | .xchw _ _ => .window
  | .adjw _ => .window
  | .ldw _ _ => .window
  | .jr _ _ => .jump
  | .jral _ _ => .link
  | .jvt _ _ => .jump
  | .jst _ _ => .jump
  | .jal _ _ => .link
  | .jnz _ => .jump
  | .jne _ => .jump
  | .jns _ => .jump
  | .jnc _ => .jump
  | .jult _ => .jump
  | .jno _ => .jump
  | .jugt _ => .jump
  | .jsge _ => .jump
  | .jsgt _ => .jump
  | .jn _ => .jump
  | .jz _ => .jump
  | .je _ => .jump
  | .js _ => .jump
  | .jc _ => .jump
  | .juge _ => .jump
  | .jo _ => .jump
  | .jule _ => .jump
  | .jslt _ => .jump
  | .jsle _ => .jump
  | .j _ => .jump
  | .exti _ => .exti

/-- The address of the one word of `mem` an instruction writes, computed as its meaning computes it: Rd in the
window W selects when it is written (the NEW one for LDW and XCHW, R140), or the address of ST and STR. -/
def writtenAddress (s : State) : Instr → Option Word
  | .and rd _ _ => some (s.regAddr rd)
  | .or rd _ _ => some (s.regAddr rd)
  | .xor rd _ _ => some (s.regAddr rd)
  | .cmp _ _ => none
  | .andi rd _ _ => some (s.regAddr rd)
  | .ori rd _ _ => some (s.regAddr rd)
  | .xori rd _ _ => some (s.regAddr rd)
  | .cmpi _ _ => none
  | .add rd _ _ => some (s.regAddr rd)
  | .adc rd _ _ => some (s.regAddr rd)
  | .sub rd _ _ => some (s.regAddr rd)
  | .sbb rd _ _ => some (s.regAddr rd)
  | .addi rd _ _ => some (s.regAddr rd)
  | .adci rd _ _ => some (s.regAddr rd)
  | .subi rd _ _ => some (s.regAddr rd)
  | .sbbi rd _ _ => some (s.regAddr rd)
  | .sll rd _ _ => some (s.regAddr rd)
  | .rol rd _ _ => some (s.regAddr rd)
  | .srl rd _ _ => some (s.regAddr rd)
  | .sra rd _ _ => some (s.regAddr rd)
  | .slli rd _ _ => some (s.regAddr rd)
  | .roli rd _ _ => some (s.regAddr rd)
  | .srli rd _ _ => some (s.regAddr rd)
  | .srai rd _ _ => some (s.regAddr rd)
  | .ld rd _ _ => some (s.regAddr rd)
  | .ldr rd _ _ => some (s.regAddr rd)
  | .st _ ra off5 => some (s.resolve .address (s.baseAddr ra (value5 s off5)))
  | .str _ ra off5 => some (s.resolve .address (s.pcAddr ra (value5 s off5)))
  | .ldx rd _ _ => some (s.regAddr rd)
  | .ldxa rd _ => some (s.regAddr rd)
  | .stx _ _ _ => none
  | .stxa _ _ => none
  | .movi rd _ => some (s.regAddr rd)
  | .movr rd _ => some (s.regAddr rd)
  | .stw _ => none
  | .xchw rd rb => match s.reg rb with
    | .defined v => some ((s.setWindow v).regAddr rd)
    | .undefined => none
  | .adjw _ => none
  | .ldw rd imm5 => match value5 s imm5 with
    | .defined d => some ((s.setWindow (s.w + d)).regAddr rd)
    | .undefined => none
  | .jr _ _ => none
  | .jral rd _ => some (s.regAddr rd)
  | .jvt _ _ => none
  | .jst _ _ => none
  | .jal rd _ => some (s.regAddr rd)
  | .jnz _ => none
  | .jne _ => none
  | .jns _ => none
  | .jnc _ => none
  | .jult _ => none
  | .jno _ => none
  | .jugt _ => none
  | .jsge _ => none
  | .jsgt _ => none
  | .jn _ => none
  | .jz _ => none
  | .je _ => none
  | .js _ => none
  | .jc _ => none
  | .juge _ => none
  | .jo _ => none
  | .jule _ => none
  | .jslt _ => none
  | .jsle _ => none
  | .j _ => none
  | .exti _ => none

end Sys2Proof.Claims
end

