-- ==== Sys2Proof/Certificates/Slice0/Obligations.lean ====
section
/-! DEFINITION. The statements for the provers. Their terms (`WritesRegister`, `CompletesUnless`, `SumFlags`, …) are
defined in Sys2Proof/Safety.lean. -/

open Sys2Proof Sys2Proof.Machine Sys2Proof.Claims

/-! ## Encoding -/

/-- R90, R81 to R85: decoding the word of any instruction gives the instruction. Where it has two names the decoder
answers JNZ, JNC, JZ or JC, which is the model's choice (log 16): R90 prefers neither name. -/
def Obligations.EncodeThenDecodeIsIdentity : Prop :=
  ∀ i : Instr, decode (encode i) = .ok i.canonical ∧
    (decode (encode i) = .ok i ↔
      ∀ off8 : BitVec 8, i ≠ .jne off8 ∧ i ≠ .jult off8 ∧ i ≠ .je off8 ∧ i ≠ .juge off8)

/-- R92: a word has one meaning: what it decodes to encodes to it again. That it decodes to the canonical one of two
names, `i.canonical = i`, is the model's choice (log 16). -/
def Obligations.DecodeThenEncodeIsIdentity : Prop :=
  ∀ (w : Word) (i : Instr), decode w = .ok i → encode i = w ∧ i.canonical = i

/-- R88: the words not present are exactly the nine patterns of its table, and executing one is UNPREDICTABLE. The
last six rows are the spec's own reading (92_eei_decisions.md D20, log 17). -/
def Obligations.WordsNotPresentAreThePatternsOfTheTable : Prop :=
  (∀ w : Word, (∀ i : Instr, decode w ≠ .ok i) ↔ NotPresent w) ∧
  ∀ s : State, NotPresent s.fetch → step s = .fault .encodingNotPresent

/-- Words written out from the rules' own examples decode to the instructions the rules name, 0xB8FE under the name JZ
where R165's example names JE: one instruction (R90), whose name is the model's choice (log 16). SRAI's word 0x295C is
the spec's own correction of the opcode the manual prints (90_conflicts.md C3, log 21). -/
def Obligations.ExampleWordsDecode : Prop :=
  decode 0x116D = .ok (.adc 1 3 5) ∧ decode 0x0924 = .ok (.andi 1 1 4) ∧
  decode 0x003A = .ok (.cmp 1 2) ∧ decode 0x295C = .ok (.srai 1 2 4) ∧
  decode 0x515F = .ok (.st 1 2 0x1F) ∧ decode 0x787F = .ok (.stxa 0 0x7F) ∧
  decode 0xA727 = .ok (.xchw 7 7) ∧ decode 0xA382 = .ok (.jr 3 2) ∧
  decode 0xB8FE = .ok (.jz 0xFE) ∧ decode 0xC246 = .ok (.exti 0x0246)

/-- R90: the two names of each pair are one machine instruction: one word, one effect. -/
def Obligations.SharedEncodingsAreOneInstruction : Prop :=
  ∀ (off8 : BitVec 8) (s : State),
    (encode (.jc off8) = encode (.juge off8) ∧ exec (.jc off8) s = exec (.juge off8) s) ∧
    (encode (.je off8) = encode (.jz off8) ∧ exec (.je off8) s = exec (.jz off8) s) ∧
    (encode (.jnc off8) = encode (.jult off8) ∧ exec (.jnc off8) s = exec (.jult off8) s) ∧
    (encode (.jne off8) = encode (.jnz off8) ∧ exec (.jne off8) s = exec (.jnz off8) s)

/-! ## The step -/

/-- R13, R53: where the word at PC decodes to `i`, a step is `i` executed; the word fetched is the one in `mem` at PC
(the spec's decision D3, log 24). The instruction itself moves PC, so the step adds nothing around it. Of a halted
state too: the test of HALT in R13's block is a predicate beside the step, which runs on (D18, R262; log 14). Where PC
or the word is UNDEFINED the word fetched is a free one (R10, logs 2 and 3). -/
def Obligations.StepRunsTheDecodedInstruction : Prop :=
  ∀ (s : State) (i : Instr),
    (decode s.fetch = .ok i → step s = exec i s) ∧
    ∀ w : Word, wordAt s s.pc = .defined w → decode w = .ok i → s.fetch = w ∧ step s = exec i s

/-- R262: a step has two outcomes only; nothing is ever refused. -/
def Obligations.NothingIsRefused : Prop :=
  ∀ (s : State) (r : Refusal), step s ≠ .refused r ∧ ∀ i : Instr, exec i s ≠ .refused r

/-- R251, R253: an instruction stops in exactly the listed conditions, each with its own reason, and completes in
every other state; a fetched word that is no instruction is the fifth reason. The spec's own choices in it: D14 (the
"TBD" row, log 7), D17 (shift amounts, log 19), D19 (UNDEFINED in a test, log 5), the test order of R253 (log 18). -/
def Obligations.FaultsAreExactlyTheListedConditions : Prop :=
  (∀ (s : State) (i : Instr) (f : Fault), exec i s = .fault f ↔
    (f = .longFormHighBits ∧ LongFormHighBits s i) ∨
    (f = .windowNotMultipleOf8 ∧ WindowNotMultipleOf8 s i) ∨
    (f = .shiftAmountAbove15 ∧ ShiftAmountAbove15 s i) ∨
    (f = .immAl3Undefined ∧ ImmAl3Undefined s i)) ∧
  (∀ (s : State) (i : Instr), (∃ t, exec i s = .next t) ↔
    ¬ LongFormHighBits s i ∧ ¬ WindowNotMultipleOf8 s i ∧ ¬ ShiftAmountAbove15 s i ∧
      ¬ ImmAl3Undefined s i) ∧
  ∀ s : State, step s = .fault .encodingNotPresent ↔ ∀ i : Instr, decode s.fetch ≠ .ok i

/-- R33: ext13 and has_ext13 after any instruction. -/
def Obligations.ExtensionLastsOneInstruction : Prop :=
  ∀ (i : Instr) (s t : State), exec i s = .next t →
    (∀ e, i = .exti e → t.ext13 = .defined e ∧ t.hasExt13 = true) ∧
    ((∀ e, i ≠ .exti e) → t.ext13 = .undefined ∧ t.hasExt13 = false)

/-- R22: PC goes to PC + 1 after every instruction that is no jump. -/
def Obligations.PcAdvancesUnlessJump : Prop :=
  ∀ (i : Instr) (s t : State), exec i s = .next t → familyOf i ≠ .jump → familyOf i ≠ .link →
    t.pc = pcPlus s 1

/-- R25: no instruction but the four window instructions changes W. -/
def Obligations.OnlyWindowInstructionsChangeW : Prop :=
  ∀ (i : Instr) (s t : State), exec i s = .next t → familyOf i ≠ .window → t.w = s.w

/-- R30, R34: which instructions leave the four flags unchanged, and which make C and V UNDEFINED. -/
def Obligations.FlagWritersAreTheTable : Prop :=
  ∀ (i : Instr) (s t : State), exec i s = .next t →
    (familyOf i ≠ .arith → familyOf i ≠ .compare → familyOf i ≠ .logic → familyOf i ≠ .shift →
      SameFlags s t) ∧
    (familyOf i = .logic ∨ familyOf i = .shift → t.flagC = .undefined ∧ t.flagV = .undefined)

/-- R52, R57: only LDX, LDXA, STX and STXA reach the external bus, each with one cycle of its kind. -/
def Obligations.BusCyclesAreOnePerBusInstruction : Prop :=
  ∀ (i : Instr) (s t : State), exec i s = .next t →
    (familyOf i = .busLoad → ∃ a v, t.extTrace = s.extTrace ++ [.read a v]) ∧
    (familyOf i = .busStore → ∃ a v, t.extTrace = s.extTrace ++ [.write a v]) ∧
    (familyOf i ≠ .busLoad → familyOf i ≠ .busStore → t.extTrace = s.extTrace)

/-- R34, R52, R57: every word of `mem` but the one an instruction writes reads as before; the address of that one is
computed as the instruction's meaning computes it, a free one for a store at an UNDEFINED address (log 4). -/
def Obligations.EveryInstructionWritesAtMostOneWord : Prop :=
  ∀ (i : Instr) (s t : State), exec i s = .next t →
    (∀ a, writtenAddress s i = some a → SameMemoryExcept s t a) ∧
    (writtenAddress s i = none → SameMemory s t)

/-- The model's own counter (log 2): every completed instruction advances the draws' number, so no two
instructions of a run draw the same free value. -/
def Obligations.EveryInstructionDrawsAnew : Prop :=
  ∀ (i : Instr) (s t : State), exec i s = .next t → t.drawIndex = s.drawIndex + 1

/-! ## Reset and the invariant -/

/-- What reset leaves: PC and W as the manual gives them by default (log 8); has_ext13, ext13, the flags and memory
as the spec's own decision D5 chooses them (logs 9 and 10). -/
def Obligations.ResetState : Prop :=
  State.reset.pc = .defined 0x0000 ∧ State.reset.w = 0xFFF8 ∧ State.reset.hasExt13 = false ∧
  State.reset.ext13 = .undefined ∧ State.reset.flagZ = .undefined ∧ State.reset.flagS = .undefined ∧
  State.reset.flagC = .undefined ∧ State.reset.flagV = .undefined ∧
  ∀ a : Word, State.reset.memRead a = .undefined

/-- The invariant holds after reset. -/
def Obligations.ResetMeetsTheInvariant : Prop := State.reset.Inv

/-- R27, R33 and the canonical form of memory: every step keeps the invariant. -/
def Obligations.EveryStepKeepsTheInvariant : Prop :=
  ∀ s t : State, s.Inv → step s = .next t → t.Inv

/-- Memory is determined by what it reads: two canonical memories that read alike are equal data. -/
def Obligations.CanonicalMemoryIsWhatItReads : Prop :=
  ∀ m n : Memory, m.wf = true → n.wf = true → (∀ a : Word, m.lookup a.toNat = n.lookup a.toNat) → m = n

/-! ## Arithmetic, logic and compare -/

/-- R114, R112: ADD and ADC. With C UNDEFINED all that ADC writes is UNDEFINED. -/
def Obligations.AddAndAdcAddRegisters : Prop :=
  ∀ (s : State) (rd ra rb : RegNum),
    IsWordOf (0b00010#5 ++ (rd ++ (ra ++ (0b00#2 ++ rb)))) (.add rd ra rb) ∧
    IsWordOf (0b00010#5 ++ (rd ++ (ra ++ (0b01#2 ++ rb)))) (.adc rd ra rb) ∧
    (∃ t, exec (.add rd ra rb) s = .next t ∧ t.pc = pcPlus s 1 ∧
      WritesRegister s t rd (sumWord (s.reg ra) (s.reg rb) (.defined false)) ∧
      SumFlags t (s.reg ra) (s.reg rb) (.defined false)) ∧
    (∃ t, exec (.adc rd ra rb) s = .next t ∧ t.pc = pcPlus s 1 ∧
      WritesRegister s t rd (sumWord (s.reg ra) (s.reg rb) s.flagC) ∧
      SumFlags t (s.reg ra) (s.reg rb) s.flagC)

/-- R113, R115, R110: ADCI and ADDI. The spec's own inference: ADDI's Operation block was lost and is rebuilt
"[derived: from rules R113 and R114]" (log 20), the rows of decode_imm_al are its reading of a damaged table
(91_not_in_source.md N3, log 22), and the "TBD" row is its decision D14 (log 7). -/
def Obligations.AddiAndAdciAddImmediates : Prop :=
  ∀ (s : State) (rd ra : RegNum) (imm3 : BitVec 3),
    IsWordOf (0b00011#5 ++ (rd ++ (ra ++ (0b00#2 ++ imm3)))) (.addi rd ra imm3) ∧
    IsWordOf (0b00011#5 ++ (rd ++ (ra ++ (0b01#2 ++ imm3)))) (.adci rd ra imm3) ∧
    RowThree s (.addi rd ra) ∧ RowThree s (.adci rd ra) ∧
    (AluFieldOk s imm3 →
      (∃ t, exec (.addi rd ra imm3) s = .next t ∧ t.pc = pcPlus s 1 ∧
        WritesRegister s t rd (sumWord (s.reg ra) (aluValue s imm3) (.defined false)) ∧
        SumFlags t (s.reg ra) (aluValue s imm3) (.defined false)) ∧
      (∃ t, exec (.adci rd ra imm3) s = .next t ∧ t.pc = pcPlus s 1 ∧
        WritesRegister s t rd (sumWord (s.reg ra) (aluValue s imm3) s.flagC) ∧
        SumFlags t (s.reg ra) (aluValue s imm3) s.flagC))

/-- R124, R122: SUB and SBB. -/
def Obligations.SubAndSbbSubtractRegisters : Prop :=
  ∀ (s : State) (rd ra rb : RegNum),
    IsWordOf (0b00010#5 ++ (rd ++ (ra ++ (0b10#2 ++ rb)))) (.sub rd ra rb) ∧
    IsWordOf (0b00010#5 ++ (rd ++ (ra ++ (0b11#2 ++ rb)))) (.sbb rd ra rb) ∧
    (∃ t, exec (.sub rd ra rb) s = .next t ∧ t.pc = pcPlus s 1 ∧
      WritesRegister s t rd (diffWord (s.reg ra) (s.reg rb) (.defined true)) ∧
      DiffFlags t (s.reg ra) (s.reg rb) (.defined true)) ∧
    (∃ t, exec (.sbb rd ra rb) s = .next t ∧ t.pc = pcPlus s 1 ∧
      WritesRegister s t rd (diffWord (s.reg ra) (s.reg rb) s.flagC) ∧
      DiffFlags t (s.reg ra) (s.reg rb) s.flagC)

/-- R125, R123, R110: SUBI and SBBI. The spec's own inference: SBBI's Operation block was empty and is rebuilt
"[derived: from rules R122 and R125]" (log 20), the rows of decode_imm_al are its reading of a damaged table (N3, log
22), and the "TBD" row is its decision D14 (log 7). -/
def Obligations.SubiAndSbbiSubtractImmediates : Prop :=
  ∀ (s : State) (rd ra : RegNum) (imm3 : BitVec 3),
    IsWordOf (0b00011#5 ++ (rd ++ (ra ++ (0b10#2 ++ imm3)))) (.subi rd ra imm3) ∧
    IsWordOf (0b00011#5 ++ (rd ++ (ra ++ (0b11#2 ++ imm3)))) (.sbbi rd ra imm3) ∧
    RowThree s (.subi rd ra) ∧ RowThree s (.sbbi rd ra) ∧
    (AluFieldOk s imm3 →
      (∃ t, exec (.subi rd ra imm3) s = .next t ∧ t.pc = pcPlus s 1 ∧
        WritesRegister s t rd (diffWord (s.reg ra) (aluValue s imm3) (.defined true)) ∧
        DiffFlags t (s.reg ra) (aluValue s imm3) (.defined true)) ∧
      (∃ t, exec (.sbbi rd ra imm3) s = .next t ∧ t.pc = pcPlus s 1 ∧
        WritesRegister s t rd (diffWord (s.reg ra) (aluValue s imm3) s.flagC) ∧
        DiffFlags t (s.reg ra) (aluValue s imm3) s.flagC))

/-- R118: CMP sets the flags of the difference and writes no word. That only the one word with its constant bits is
CMP is the spec's decision D20 (log 17). -/
def Obligations.CmpSetsTheFlagsOnly : Prop :=
  ∀ (s : State) (ra rb : RegNum),
    IsWordOf (0b00000#5 ++ (0b000#3 ++ (ra ++ (0b11#2 ++ rb)))) (.cmp ra rb) ∧
    ∃ t, exec (.cmp ra rb) s = .next t ∧ t.pc = pcPlus s 1 ∧ WritesNoWord s t ∧
      DiffFlags t (s.reg ra) (s.reg rb) (.defined true)

/-- R119, R110: CMPI, the same with an immediate. The spec's own inference: its Operation block was empty and is
rebuilt "[derived: from rule R125 and the CMPI remark]" (log 20), the rows of decode_imm_al are its reading of a
damaged table (N3, log 22), the "TBD" row is its decision D14 (log 7), and that only the one word with its constant
bits is CMPI is its decision D20 (log 17). -/
def Obligations.CmpiSetsTheFlagsOnly : Prop :=
  ∀ (s : State) (ra : RegNum) (imm3 : BitVec 3),
    IsWordOf (0b00001#5 ++ (0b000#3 ++ (ra ++ (0b11#2 ++ imm3)))) (.cmpi ra imm3) ∧
    RowThree s (.cmpi ra) ∧
    (AluFieldOk s imm3 →
      ∃ t, exec (.cmpi ra imm3) s = .next t ∧ t.pc = pcPlus s 1 ∧ WritesNoWord s t ∧
        DiffFlags t (s.reg ra) (aluValue s imm3) (.defined true))

/-- R116, R120, R126: AND, OR and XOR; C and V become UNDEFINED. -/
def Obligations.LogicOnRegisters : Prop :=
  ∀ (s : State) (rd ra rb : RegNum),
    IsWordOf (0b00000#5 ++ (rd ++ (ra ++ (0b00#2 ++ rb)))) (.and rd ra rb) ∧
    IsWordOf (0b00000#5 ++ (rd ++ (ra ++ (0b01#2 ++ rb)))) (.or rd ra rb) ∧
    IsWordOf (0b00000#5 ++ (rd ++ (ra ++ (0b10#2 ++ rb)))) (.xor rd ra rb) ∧
    (∃ t, exec (.and rd ra rb) s = .next t ∧ t.pc = pcPlus s 1 ∧
      WritesRegister s t rd (Content.map₂ (fun x y => x &&& y) (s.reg ra) (s.reg rb)) ∧
      LogicFlags t (Content.map₂ (fun x y => x &&& y) (s.reg ra) (s.reg rb))) ∧
    (∃ t, exec (.or rd ra rb) s = .next t ∧ t.pc = pcPlus s 1 ∧
      WritesRegister s t rd (Content.map₂ (fun x y => x ||| y) (s.reg ra) (s.reg rb)) ∧
      LogicFlags t (Content.map₂ (fun x y => x ||| y) (s.reg ra) (s.reg rb))) ∧
    (∃ t, exec (.xor rd ra rb) s = .next t ∧ t.pc = pcPlus s 1 ∧
      WritesRegister s t rd (Content.map₂ (fun x y => x ^^^ y) (s.reg ra) (s.reg rb)) ∧
      LogicFlags t (Content.map₂ (fun x y => x ^^^ y) (s.reg ra) (s.reg rb)))

/-- R117, R121, R127, with the operand of R110: ANDI, ORI and XORI. The rows of decode_imm_al are the spec's reading
of a damaged table (R9, N3, log 22), and the "TBD" row is its decision D14 (log 7). -/
def Obligations.LogicOnImmediates : Prop :=
  ∀ (s : State) (rd ra : RegNum) (imm3 : BitVec 3),
    IsWordOf (0b00001#5 ++ (rd ++ (ra ++ (0b00#2 ++ imm3)))) (.andi rd ra imm3) ∧
    IsWordOf (0b00001#5 ++ (rd ++ (ra ++ (0b01#2 ++ imm3)))) (.ori rd ra imm3) ∧
    IsWordOf (0b00001#5 ++ (rd ++ (ra ++ (0b10#2 ++ imm3)))) (.xori rd ra imm3) ∧
    RowThree s (.andi rd ra) ∧ RowThree s (.ori rd ra) ∧ RowThree s (.xori rd ra) ∧
    (AluFieldOk s imm3 →
      (∃ t, exec (.andi rd ra imm3) s = .next t ∧ t.pc = pcPlus s 1 ∧
        WritesRegister s t rd (Content.map₂ (fun x y => x &&& y) (s.reg ra) (aluValue s imm3)) ∧
        LogicFlags t (Content.map₂ (fun x y => x &&& y) (s.reg ra) (aluValue s imm3))) ∧
      (∃ t, exec (.ori rd ra imm3) s = .next t ∧ t.pc = pcPlus s 1 ∧
        WritesRegister s t rd (Content.map₂ (fun x y => x ||| y) (s.reg ra) (aluValue s imm3)) ∧
        LogicFlags t (Content.map₂ (fun x y => x ||| y) (s.reg ra) (aluValue s imm3))) ∧
      (∃ t, exec (.xori rd ra imm3) s = .next t ∧ t.pc = pcPlus s 1 ∧
        WritesRegister s t rd (Content.map₂ (fun x y => x ^^^ y) (s.reg ra) (aluValue s imm3)) ∧
        LogicFlags t (Content.map₂ (fun x y => x ^^^ y) (s.reg ra) (aluValue s imm3))))

/-- R112, R114: BIII's 32-bit addition, low words by ADD and high words by ADC, for any registers that do not
overwrite an operand still needed. -/
def Obligations.AddThenAdcAddsTwoWords : Prop :=
  ∀ (s : State) (d0 d1 a0 a1 b0 b1 : RegNum) (al ah bl bh : Word),
    s.reg a0 = .defined al → s.reg a1 = .defined ah → s.reg b0 = .defined bl → s.reg b1 = .defined bh →
    d0 ≠ a1 → d0 ≠ b1 → d0 ≠ d1 →
    ∃ t lo hi, execAll [.add d0 a0 b0, .adc d1 a1 b1] s = .next t ∧
      t.reg d0 = .defined lo ∧ t.reg d1 = .defined hi ∧
      hi.toNat * 65536 + lo.toNat =
        (ah.toNat * 65536 + al.toNat + (bh.toNat * 65536 + bl.toNat)) % 4294967296 ∧
      t.flagC = .defined
        (decide (4294967296 ≤ ah.toNat * 65536 + al.toNat + (bh.toNat * 65536 + bl.toNat)))

/-- R122, R124: BIII's 32-bit subtraction, low words by SUB and high words by SBB. -/
def Obligations.SubThenSbbSubtractsTwoWords : Prop :=
  ∀ (s : State) (d0 d1 a0 a1 b0 b1 : RegNum) (al ah bl bh : Word),
    s.reg a0 = .defined al → s.reg a1 = .defined ah → s.reg b0 = .defined bl → s.reg b1 = .defined bh →
    d0 ≠ a1 → d0 ≠ b1 → d0 ≠ d1 →
    ∃ t lo hi, execAll [.sub d0 a0 b0, .sbb d1 a1 b1] s = .next t ∧
      t.reg d0 = .defined lo ∧ t.reg d1 = .defined hi ∧
      hi.toNat * 65536 + lo.toNat =
        (4294967296 + (ah.toNat * 65536 + al.toNat) - (bh.toNat * 65536 + bl.toNat)) % 4294967296 ∧
      t.flagC = .defined
        (decide (bh.toNat * 65536 + bl.toNat ≤ ah.toNat * 65536 + al.toNat))

/-! ## Shifts and rotates -/

/-- R221, R223, R225, R227: the register forms, for the amounts 0 to 15; a larger amount is UNPREDICTABLE and not
taken modulo 16. ROL's result is the spec's own correction of the slice the manual prints (90_conflicts.md C7, log
21). (An UNDEFINED amount: `FaultsAreExactlyTheListedConditions`.) -/
def Obligations.ShiftsByRegister : Prop :=
  ∀ (s : State) (rd ra rb : RegNum),
    IsWordOf (0b00100#5 ++ (rd ++ (ra ++ (0b00#2 ++ rb)))) (.sll rd ra rb) ∧
    IsWordOf (0b00100#5 ++ (rd ++ (ra ++ (0b01#2 ++ rb)))) (.rol rd ra rb) ∧
    IsWordOf (0b00100#5 ++ (rd ++ (ra ++ (0b10#2 ++ rb)))) (.srl rd ra rb) ∧
    IsWordOf (0b00100#5 ++ (rd ++ (ra ++ (0b11#2 ++ rb)))) (.sra rd ra rb) ∧
    (∀ n : Word, s.reg rb = .defined n → n.toNat ≤ 15 →
      (∃ t, exec (.sll rd ra rb) s = .next t ∧ t.pc = pcPlus s 1 ∧
        WritesRegister s t rd ((s.reg ra).map (sllWord n.toNat)) ∧
        LogicFlags t ((s.reg ra).map (sllWord n.toNat))) ∧
      (∃ t, exec (.rol rd ra rb) s = .next t ∧ t.pc = pcPlus s 1 ∧
        WritesRegister s t rd ((s.reg ra).map (rolWord n.toNat)) ∧
        LogicFlags t ((s.reg ra).map (rolWord n.toNat))) ∧
      (∃ t, exec (.srl rd ra rb) s = .next t ∧ t.pc = pcPlus s 1 ∧
        WritesRegister s t rd ((s.reg ra).map (srlWord n.toNat)) ∧
        LogicFlags t ((s.reg ra).map (srlWord n.toNat))) ∧
      (∃ t, exec (.sra rd ra rb) s = .next t ∧ t.pc = pcPlus s 1 ∧
        WritesRegister s t rd ((s.reg ra).map (sraWord n.toNat)) ∧
        LogicFlags t ((s.reg ra).map (sraWord n.toNat)))) ∧
    (∀ n : Word, s.reg rb = .defined n → 15 < n.toNat →
      exec (.sll rd ra rb) s = .fault .shiftAmountAbove15 ∧
      exec (.rol rd ra rb) s = .fault .shiftAmountAbove15 ∧
      exec (.srl rd ra rb) s = .fault .shiftAmountAbove15 ∧
      exec (.sra rd ra rb) s = .fault .shiftAmountAbove15)

/-- R222, R224, R226, R228, R220: the immediate forms. The spec's own corrections (log 21): SRAI's opcode
(90_conflicts.md C3), the slice of ROLI (C7), and that there is a long form (C10, log 19). The spec's own inferences:
the Operation blocks of ROLI, SRAI and SRLI were lost and are rebuilt ("[derived: from rules R221 and R224]" and its
like, log 20), the long form's amount above 15 is UNPREDICTABLE by its decision D17 (log 19), and an UNDEFINED amount
by D19 (log 5). -/
def Obligations.ShiftsByImmediate : Prop :=
  ∀ (s : State) (rd ra : RegNum) (imm3 : BitVec 3),
    IsWordOf (0b00101#5 ++ (rd ++ (ra ++ (0b00#2 ++ imm3)))) (.slli rd ra imm3) ∧
    IsWordOf (0b00101#5 ++ (rd ++ (ra ++ (0b01#2 ++ imm3)))) (.roli rd ra imm3) ∧
    IsWordOf (0b00101#5 ++ (rd ++ (ra ++ (0b10#2 ++ imm3)))) (.srli rd ra imm3) ∧
    IsWordOf (0b00101#5 ++ (rd ++ (ra ++ (0b11#2 ++ imm3)))) (.srai rd ra imm3) ∧
    (∀ n : Word, shiftValue s imm3 = .defined n → n.toNat ≤ 15 →
      (∃ t, exec (.slli rd ra imm3) s = .next t ∧ t.pc = pcPlus s 1 ∧
        WritesRegister s t rd ((s.reg ra).map (sllWord n.toNat)) ∧
        LogicFlags t ((s.reg ra).map (sllWord n.toNat))) ∧
      (∃ t, exec (.roli rd ra imm3) s = .next t ∧ t.pc = pcPlus s 1 ∧
        WritesRegister s t rd ((s.reg ra).map (rolWord n.toNat)) ∧
        LogicFlags t ((s.reg ra).map (rolWord n.toNat))) ∧
      (∃ t, exec (.srli rd ra imm3) s = .next t ∧ t.pc = pcPlus s 1 ∧
        WritesRegister s t rd ((s.reg ra).map (srlWord n.toNat)) ∧
        LogicFlags t ((s.reg ra).map (srlWord n.toNat))) ∧
      (∃ t, exec (.srai rd ra imm3) s = .next t ∧ t.pc = pcPlus s 1 ∧
        WritesRegister s t rd ((s.reg ra).map (sraWord n.toNat)) ∧
        LogicFlags t ((s.reg ra).map (sraWord n.toNat)))) ∧
    (¬ Surely (shiftValue s imm3) (· ≤ 15) →
      exec (.slli rd ra imm3) s = .fault .shiftAmountAbove15 ∧
      exec (.roli rd ra imm3) s = .fault .shiftAmountAbove15 ∧
      exec (.srli rd ra imm3) s = .fault .shiftAmountAbove15 ∧
      exec (.srai rd ra imm3) s = .fault .shiftAmountAbove15)

/-! ## Window instructions -/

/-- R141, R142: ADJW and LDW. LDW writes the old W to Rd of the NEW window. That only the words with its constant bits
are ADJW is the spec's decision D20 (log 17). -/
def Obligations.AdjwAndLdwMoveTheWindow : Prop :=
  ∀ (s : State) (rd : RegNum) (imm5 : BitVec 5),
    IsWordOf (0b10100#5 ++ (0b000#3 ++ (0b010#3 ++ imm5))) (.adjw imm5) ∧
    IsWordOf (0b10100#5 ++ (rd ++ (0b011#3 ++ imm5))) (.ldw rd imm5) ∧
    (∀ d : Word, Field5Ok s imm5 → value5 s imm5 = .defined d → d.toNat % 8 = 0 →
      (∃ t, exec (.adjw imm5) s = .next t ∧ t.pc = pcPlus s 1 ∧ SameMemory s t ∧ SameFlags s t ∧
        NoBusCycle s t ∧ ExtCleared t ∧ t.w = BitVec.ofNat 16 (s.w.toNat + d.toNat)) ∧
      (∃ t, exec (.ldw rd imm5) s = .next t ∧ t.pc = pcPlus s 1 ∧ SameFlags s t ∧ NoBusCycle s t ∧
        ExtCleared t ∧ t.w = BitVec.ofNat 16 (s.w.toNat + d.toNat) ∧ t.reg rd = .defined s.w ∧
        SameMemoryExcept s t (BitVec.ofNat 16 (s.w.toNat + d.toNat + rd.toNat)))) ∧
    (¬ Field5Ok s imm5 → exec (.adjw imm5) s = .fault .longFormHighBits ∧
      exec (.ldw rd imm5) s = .fault .longFormHighBits) ∧
    (∀ d : Word, Field5Ok s imm5 → value5 s imm5 = .defined d → d.toNat % 8 ≠ 0 →
      exec (.adjw imm5) s = .fault .windowNotMultipleOf8 ∧
      exec (.ldw rd imm5) s = .fault .windowNotMultipleOf8)

/-- R143, R144: STW and XCHW. Rb is read in the old window, Rd of XCHW written in the new one. (An UNDEFINED Rb:
`FaultsAreExactlyTheListedConditions`.) That only the words with their constant bits are STW and XCHW is the spec's
decision D20 (log 17). -/
def Obligations.StwAndXchwLoadTheWindow : Prop :=
  ∀ (s : State) (rd rb : RegNum),
    IsWordOf (0b10100#5 ++ (0b000#3 ++ (0b000#3 ++ (0b00#2 ++ rb)))) (.stw rb) ∧
    IsWordOf (0b10100#5 ++ (rd ++ (0b001#3 ++ (0b00#2 ++ rb)))) (.xchw rd rb) ∧
    (∀ v : Word, s.reg rb = .defined v → v.toNat % 8 = 0 →
      (∃ t, exec (.stw rb) s = .next t ∧ t.pc = pcPlus s 1 ∧ SameMemory s t ∧ SameFlags s t ∧
        NoBusCycle s t ∧ ExtCleared t ∧ t.w = v) ∧
      (∃ t, exec (.xchw rd rb) s = .next t ∧ t.pc = pcPlus s 1 ∧ SameFlags s t ∧ NoBusCycle s t ∧
        ExtCleared t ∧ t.w = v ∧ t.reg rd = .defined s.w ∧
        SameMemoryExcept s t (BitVec.ofNat 16 (v.toNat + rd.toNat)))) ∧
    (∀ v : Word, s.reg rb = .defined v → v.toNat % 8 ≠ 0 →
      exec (.stw rb) s = .fault .windowNotMultipleOf8 ∧
      exec (.xchw rd rb) s = .fault .windowNotMultipleOf8)

/-- R142, R143: STW undoes LDW: with W a multiple of 8, the frame pointer LDW left restores the caller's window. -/
def Obligations.StwUndoesLdw : Prop :=
  ∀ (s : State) (rd : RegNum) (imm5 : BitVec 5) (d : Word),
    s.w.toNat % 8 = 0 → Field5Ok s imm5 → value5 s imm5 = .defined d → d.toNat % 8 = 0 →
    ∃ t, execAll [.ldw rd imm5, .stw rd] s = .next t ∧ t.w = s.w ∧
      SameMemoryExcept s t (BitVec.ofNat 16 (s.w.toNat + d.toNat + rd.toNat))

/-- R144, BIII's context switch: XCHW Rn, Rn twice comes back to the window it left, whose Rn holds what it held;
the one word changed is Rn of the other window. -/
def Obligations.XchwTwiceReturns : Prop :=
  ∀ (s : State) (r : RegNum) (v : Word),
    s.w.toNat % 8 = 0 → s.reg r = .defined v → v.toNat % 8 = 0 →
    ∃ t u, exec (.xchw r r) s = .next t ∧ exec (.xchw r r) t = .next u ∧
      t.w = v ∧ u.w = s.w ∧ u.reg r = .defined v ∧
      SameMemoryExcept s u (BitVec.ofNat 16 (v.toNat + r.toNat))

/-- R27: while W is a multiple of 8 the registers are the aligned block W to W + 7, without wrap. -/
def Obligations.AlignedWindowDoesNotWrap : Prop :=
  ∀ (s : State) (r : RegNum), s.w.toNat % 8 = 0 → (s.regAddr r).toNat = s.w.toNat + r.toNat

/-! ## EXTI and moves -/

/-- R150: EXTI sets ext13 and has_ext13 and changes nothing else but PC, in every state. -/
def Obligations.ExtiSetsTheExtension : Prop :=
  ∀ (s : State) (imm13 : BitVec 13),
    IsWordOf (0b110#3 ++ imm13) (.exti imm13) ∧
    ∃ t, exec (.exti imm13) s = .next t ∧ t.ext13 = .defined imm13 ∧ t.hasExt13 = true ∧
      t.pc = pcPlus s 1 ∧ t.w = s.w ∧ SameMemory s t ∧ SameFlags s t ∧ NoBusCycle s t

/-- R151: MOVI. Its restriction is the spec's own correction of the bits the manual prints, imm8[7:3] for imm8[8:3]
(90_conflicts.md C6, log 21). -/
def Obligations.MoviLoadsAConstant : Prop :=
  ∀ (s : State) (rd : RegNum) (imm8 : BitVec 8),
    IsWordOf (0b10000#5 ++ (rd ++ imm8)) (.movi rd imm8) ∧
    CompletesUnless (Field8Ok s imm8) (exec (.movi rd imm8) s) .longFormHighBits fun t =>
      WritesRegister s t rd (value8 s imm8) ∧ SameFlags s t ∧ t.pc = pcPlus s 1

/-- R152: MOVR. -/
def Obligations.MovrLoadsAnAddress : Prop :=
  ∀ (s : State) (rd : RegNum) (off8 : BitVec 8),
    IsWordOf (0b10001#5 ++ (rd ++ off8)) (.movr rd off8) ∧
    CompletesUnless (Field8Ok s off8) (exec (.movr rd off8) s) .longFormHighBits fun t =>
      WritesRegister s t rd (addWords (pcPlus s 1) (value8 s off8)) ∧
      SameFlags s t ∧ t.pc = pcPlus s 1

/-- R86, and what R94 derives from it: EXTI v[15:3] and then the field v[2:0] give any 16-bit operand v, here with
MOVI. -/
def Obligations.LongFormReachesEveryConstant : Prop :=
  ∀ (s : State) (rd : RegNum) (v : Word),
    ∃ t, execAll [extendFor v, .movi rd (0#5 ++ longField v)] s = .next t ∧
      WritesRegister s t rd (.defined v) ∧ SameFlags s t ∧ t.pc = pcPlus s 2

/-! ## Loads and stores -/

/-- R201, R202: LD and LDR. From an UNDEFINED address Rd becomes UNDEFINED: R10 as log 4 applies it to a load; the two
rules do not say it. -/
def Obligations.LoadsFromMemory : Prop :=
  ∀ (s : State) (rd ra : RegNum) (off5 : BitVec 5),
    IsWordOf (0b01000#5 ++ (rd ++ (ra ++ off5))) (.ld rd ra off5) ∧
    IsWordOf (0b01001#5 ++ (rd ++ (ra ++ off5))) (.ldr rd ra off5) ∧
    (CompletesUnless (Field5Ok s off5) (exec (.ld rd ra off5) s) .longFormHighBits fun t =>
      WritesRegister s t rd (wordAt s (addWords (s.reg ra) (value5 s off5))) ∧
      SameFlags s t ∧ t.pc = pcPlus s 1) ∧
    (CompletesUnless (Field5Ok s off5) (exec (.ldr rd ra off5) s) .longFormHighBits fun t =>
      WritesRegister s t rd
        (wordAt s (addWords (addWords (pcPlus s 1) (value5 s off5)) (s.reg ra))) ∧
      SameFlags s t ∧ t.pc = pcPlus s 1)

/-- R205, R206: ST and STR. The address stored to is the one the meaning computes; where its parts are defined it
is the rule's sum, and where one is UNDEFINED it is a free address, the model's choice (R10, log 4). -/
def Obligations.StoresToMemory : Prop :=
  ∀ (s : State) (rs ra : RegNum) (off5 : BitVec 5),
    IsWordOf (0b01010#5 ++ (rs ++ (ra ++ off5))) (.st rs ra off5) ∧
    IsWordOf (0b01011#5 ++ (rs ++ (ra ++ off5))) (.str rs ra off5) ∧
    (CompletesUnless (Field5Ok s off5) (exec (.st rs ra off5) s) .longFormHighBits fun t =>
      (∀ a, addWords (s.reg ra) (value5 s off5) = .defined a →
        t.memRead a = s.reg rs ∧ SameMemoryExcept s t a) ∧
      (∀ a, s.resolve .address (s.baseAddr ra (value5 s off5)) = a →
        t.memRead a = s.reg rs ∧ SameMemoryExcept s t a) ∧
      t.w = s.w ∧ SameFlags s t ∧ NoBusCycle s t ∧ ExtCleared t ∧ t.pc = pcPlus s 1) ∧
    (CompletesUnless (Field5Ok s off5) (exec (.str rs ra off5) s) .longFormHighBits fun t =>
      (∀ a, addWords (addWords (pcPlus s 1) (value5 s off5)) (s.reg ra) = .defined a →
        t.memRead a = s.reg rs ∧ SameMemoryExcept s t a) ∧
      (∀ a, s.resolve .address (s.pcAddr ra (value5 s off5)) = a →
        t.memRead a = s.reg rs ∧ SameMemoryExcept s t a) ∧
      t.w = s.w ∧ SameFlags s t ∧ NoBusCycle s t ∧ ExtCleared t ∧ t.pc = pcPlus s 1)

/-- R203, R204: LDX and LDXA do one load cycle and write the environment's answer, whatever it is, to Rd. The trace is
the record the spec's decision D8 asks for (log 13). At an UNDEFINED address the cycle has some address and Rd becomes
UNDEFINED: R10 as log 4 applies it. -/
def Obligations.BusLoadsWriteTheAnswer : Prop :=
  ∀ (s : State) (rd ra : RegNum) (off5 : BitVec 5) (off8 : BitVec 8),
    IsWordOf (0b01100#5 ++ (rd ++ (ra ++ off5))) (.ldx rd ra off5) ∧
    IsWordOf (0b01101#5 ++ (rd ++ off8)) (.ldxa rd off8) ∧
    (CompletesUnless (Field5Ok s off5) (exec (.ldx rd ra off5) s) .longFormHighBits fun t =>
      ∃ a v, t.extTrace = s.extTrace ++ [.read a v] ∧
        (∀ b, addWords (s.reg ra) (value5 s off5) = .defined b → a = b ∧ t.reg rd = .defined v) ∧
        (addWords (s.reg ra) (value5 s off5) = .undefined → t.reg rd = .undefined) ∧
        SameMemoryExcept s t (s.regAddr rd) ∧ t.w = s.w ∧ SameFlags s t ∧ ExtCleared t ∧
        t.pc = pcPlus s 1) ∧
    (CompletesUnless (Field8Ok s off8) (exec (.ldxa rd off8) s) .longFormHighBits fun t =>
      ∃ a v, t.extTrace = s.extTrace ++ [.read a v] ∧
        (∀ b, value8 s off8 = .defined b → a = b ∧ t.reg rd = .defined v) ∧
        (value8 s off8 = .undefined → t.reg rd = .undefined) ∧
        SameMemoryExcept s t (s.regAddr rd) ∧ t.w = s.w ∧ SameFlags s t ∧ ExtCleared t ∧
        t.pc = pcPlus s 1)

/-- R207, R208: STX and STXA do one store cycle; no state of the CPU changes but PC and the EXTI latch. The trace is
the record the spec's decision D8 asks for (log 13), and at an UNDEFINED address the cycle has some address (R10, log
4). -/
def Obligations.BusStoresDriveTheBus : Prop :=
  ∀ (s : State) (rs ra : RegNum) (off5 : BitVec 5) (off8 : BitVec 8),
    IsWordOf (0b01110#5 ++ (rs ++ (ra ++ off5))) (.stx rs ra off5) ∧
    IsWordOf (0b01111#5 ++ (rs ++ off8)) (.stxa rs off8) ∧
    (CompletesUnless (Field5Ok s off5) (exec (.stx rs ra off5) s) .longFormHighBits fun t =>
      ∃ a v, t.extTrace = s.extTrace ++ [.write a v] ∧
        (∀ b, addWords (s.reg ra) (value5 s off5) = .defined b → a = b) ∧
        (∀ x, s.reg rs = .defined x → v = x) ∧
        SameMemory s t ∧ t.w = s.w ∧ SameFlags s t ∧ ExtCleared t ∧ t.pc = pcPlus s 1) ∧
    (CompletesUnless (Field8Ok s off8) (exec (.stxa rs off8) s) .longFormHighBits fun t =>
      ∃ a v, t.extTrace = s.extTrace ++ [.write a v] ∧
        (∀ b, value8 s off8 = .defined b → a = b) ∧
        (∀ x, s.reg rs = .defined x → v = x) ∧
        SameMemory s t ∧ t.w = s.w ∧ SameFlags s t ∧ ExtCleared t ∧ t.pc = pcPlus s 1)

/-- R54: registers are memory: a store to the address of Rq writes Rq, and a load from it reads Rq. -/
def Obligations.LoadsAndStoresReachTheWindow : Prop :=
  ∀ (s : State) (r ra q : RegNum) (off5 : BitVec 5),
    Field5Ok s off5 → addWords (s.reg ra) (value5 s off5) = .defined (s.regAddr q) →
    (∃ t, exec (.st r ra off5) s = .next t ∧ t.reg q = s.reg r ∧ ∀ p, p ≠ q → t.reg p = s.reg p) ∧
    (∃ t, exec (.ld r ra off5) s = .next t ∧ t.reg r = s.reg q ∧ ∀ p, p ≠ r → t.reg p = s.reg p)

/-- R64 (the spec's own decision D10, log 24): a store, ST or STR, to the next instruction's address is what the next
step fetches and runs. -/
def Obligations.StoreIsSeenByTheNextFetch : Prop :=
  ∀ (s : State) (rs ra : RegNum) (off5 : BitVec 5) (p w : Word) (i : Instr),
    Field5Ok s off5 → pcPlus s 1 = .defined p → s.reg rs = .defined w → decode w = .ok i →
    (addWords (s.reg ra) (value5 s off5) = .defined p →
      ∃ t, exec (.st rs ra off5) s = .next t ∧ t.fetch = w ∧ step t = exec i t) ∧
    (addWords (addWords (pcPlus s 1) (value5 s off5)) (s.reg ra) = .defined p →
      ∃ t, exec (.str rs ra off5) s = .next t ∧ t.fetch = w ∧ step t = exec i t)

/-! ## Jumps -/

/-- R164, R165, R167 to R172, R175, R181, R184, R186: the jumps on one flag. Of the two names of a shared word the
decoder answers JNZ, JNC, JZ and JC, the model's choice (log 16), so the other four have an encoding only. -/
def Obligations.JumpsOnOneFlag : Prop :=
  (Conditional .jnz fun s => s.flagZ.map fun z => !z) ∧ (Conditional .jne fun s => s.flagZ.map fun z => !z) ∧
  (Conditional .jz fun s => s.flagZ) ∧ (Conditional .je fun s => s.flagZ) ∧
  (Conditional .jns fun s => s.flagS.map fun n => !n) ∧ (Conditional .js fun s => s.flagS) ∧
  (Conditional .jnc fun s => s.flagC.map fun c => !c) ∧ (Conditional .jult fun s => s.flagC.map fun c => !c) ∧
  (Conditional .jc fun s => s.flagC) ∧ (Conditional .juge fun s => s.flagC) ∧
  (Conditional .jno fun s => s.flagV.map fun v => !v) ∧ (Conditional .jo fun s => s.flagV) ∧
  ∀ off8 : BitVec 8,
    IsWordOf (0b1011#4 ++ (0b0000#4 ++ off8)) (.jnz off8) ∧
    encode (.jne off8) = 0b1011#4 ++ (0b0000#4 ++ off8) ∧
    IsWordOf (0b1011#4 ++ (0b0001#4 ++ off8)) (.jns off8) ∧
    IsWordOf (0b1011#4 ++ (0b0010#4 ++ off8)) (.jnc off8) ∧
    encode (.jult off8) = 0b1011#4 ++ (0b0010#4 ++ off8) ∧
    IsWordOf (0b1011#4 ++ (0b0011#4 ++ off8)) (.jno off8) ∧
    IsWordOf (0b1011#4 ++ (0b1000#4 ++ off8)) (.jz off8) ∧
    encode (.je off8) = 0b1011#4 ++ (0b1000#4 ++ off8) ∧
    IsWordOf (0b1011#4 ++ (0b1001#4 ++ off8)) (.js off8) ∧
    IsWordOf (0b1011#4 ++ (0b1010#4 ++ off8)) (.jc off8) ∧
    encode (.juge off8) = 0b1011#4 ++ (0b1010#4 ++ off8) ∧
    IsWordOf (0b1011#4 ++ (0b1011#4 ++ off8)) (.jo off8)

/-- R176 to R179: the signed comparison jumps. -/
def Obligations.JumpsOnSignedComparisons : Prop :=
  (Conditional .jsge fun s => Content.map₂ (fun n v => n == v) s.flagS s.flagV) ∧
  (Conditional .jslt fun s => Content.map₂ (fun n v => n != v) s.flagS s.flagV) ∧
  (Conditional .jsgt fun s => Content.map₃ (fun n v z => n == v && !z) s.flagS s.flagV s.flagZ) ∧
  (Conditional .jsle fun s => Content.map₃ (fun n v z => n != v || z) s.flagS s.flagV s.flagZ) ∧
  ∀ off8 : BitVec 8,
    IsWordOf (0b1011#4 ++ (0b0101#4 ++ off8)) (.jsge off8) ∧
    IsWordOf (0b1011#4 ++ (0b1101#4 ++ off8)) (.jslt off8) ∧
    IsWordOf (0b1011#4 ++ (0b0110#4 ++ off8)) (.jsgt off8) ∧
    IsWordOf (0b1011#4 ++ (0b1110#4 ++ off8)) (.jsle off8)

/-- JUGT and JULE. The spec's own choice (90_conflicts.md C1 and C2, 92_eei_decisions.md D15 and D16; log 15): their
words are the two free ones of format C, and they read Z where the manual prints V. -/
def Obligations.JumpsOnUnsignedComparisons : Prop :=
  (Conditional .jugt fun s => Content.map₂ (fun c z => c && !z) s.flagC s.flagZ) ∧
  (Conditional .jule fun s => Content.map₂ (fun c z => !(c && !z)) s.flagC s.flagZ) ∧
  ∀ off8 : BitVec 8,
    IsWordOf (0b1011#4 ++ (0b0100#4 ++ off8)) (.jugt off8) ∧
    IsWordOf (0b1011#4 ++ (0b1100#4 ++ off8)) (.jule off8)

/-- R162, R166: J always and JN never jumps. -/
def Obligations.JumpAlwaysAndNever : Prop :=
  (Conditional .j fun _ => .defined true) ∧ (Conditional .jn fun _ => .defined false) ∧
  ∀ off8 : BitVec 8,
    IsWordOf (0b1011#4 ++ (0b1111#4 ++ off8)) (.j off8) ∧ IsWordOf (0b1011#4 ++ (0b0111#4 ++ off8)) (.jn off8)

/-- The last column of R161's table, which the spec derives, with R118: after CMP of two defined registers each
comparison jump is taken exactly when the relation it names holds between them. JUGT and JULE read Z, the spec's own
resolution where the manual prints V (90_conflicts.md C2, D16; log 15). -/
def Obligations.CompareThenBranchDecidesTheRelation : Prop :=
  ∀ (s : State) (ra rb : RegNum) (a b : Word) (off8 : BitVec 8),
    s.reg ra = .defined a → s.reg rb = .defined b →
    ∃ t, exec (.cmp ra rb) s = .next t ∧
      ∀ (mk : BitVec 8 → Instr) (rel : Prop),
        ((mk = .je ∧ (rel ↔ a = b)) ∨ (mk = .jne ∧ (rel ↔ a ≠ b)) ∨
         (mk = .jult ∧ (rel ↔ a.toNat < b.toNat)) ∨ (mk = .juge ∧ (rel ↔ b.toNat ≤ a.toNat)) ∨
         (mk = .jugt ∧ (rel ↔ b.toNat < a.toNat)) ∨ (mk = .jule ∧ (rel ↔ a.toNat ≤ b.toNat)) ∨
         (mk = .jslt ∧ (rel ↔ a.toInt < b.toInt)) ∨ (mk = .jsge ∧ (rel ↔ b.toInt ≤ a.toInt)) ∨
         (mk = .jsgt ∧ (rel ↔ b.toInt < a.toInt)) ∨ (mk = .jsle ∧ (rel ↔ a.toInt ≤ b.toInt))) →
        ∃ u, exec (mk off8) t = .next u ∧
          (rel → u.pc = addWords (pcPlus s 2) (.defined (BitVec.ofInt 16 off8.toInt))) ∧
          (¬ rel → u.pc = pcPlus s 2)

/-- R163, R174: JAL and JRAL write the address of the next instruction to Rd and jump; Rb is read before Rd is
written. That only the words with its constant bits are JRAL is the spec's decision D20 (log 17). -/
def Obligations.CallsLeaveTheReturnAddress : Prop :=
  ∀ (s : State) (rd rb : RegNum) (off8 : BitVec 8),
    IsWordOf (0b10101#5 ++ (rd ++ off8)) (.jal rd off8) ∧
    IsWordOf (0b10100#5 ++ (rd ++ (0b101#3 ++ (0b00#2 ++ rb)))) (.jral rd rb) ∧
    (CompletesUnless (Field8Ok s off8) (exec (.jal rd off8) s) .longFormHighBits fun t =>
      WritesRegister s t rd (pcPlus s 1) ∧ SameFlags s t ∧ JumpsTo s t (value8 s off8)) ∧
    (∃ t, exec (.jral rd rb) s = .next t ∧ WritesRegister s t rd (pcPlus s 1) ∧
      SameFlags s t ∧ t.pc = s.reg rb)

/-- R173: JR jumps to the register plus the offset, an absolute address. The register is Rs by the spec's own
correction of the Operation block, which prints Ra (90_conflicts.md C4, log 21). With Rs UNDEFINED PC becomes
UNDEFINED (R10). -/
def Obligations.JrJumpsToTheRegister : Prop :=
  ∀ (s : State) (rs : RegNum) (off5 : BitVec 5),
    IsWordOf (0b10100#5 ++ (rs ++ (0b100#3 ++ off5))) (.jr rs off5) ∧
    CompletesUnless (Field5Ok s off5) (exec (.jr rs off5) s) .longFormHighBits fun t =>
      WritesNoWord s t ∧ SameFlags s t ∧
      t.pc = addWords (s.reg rs) (value5 s off5)

/-- R180, R185: JST and JVT jump to the table plus the table's word. Where the table's address is UNDEFINED its word
and so PC are: R10 as log 4 applies it to a load. -/
def Obligations.TableJumpsAddTheEntryToTheTable : Prop :=
  ∀ (s : State) (rs : RegNum) (off5 : BitVec 5),
    IsWordOf (0b10100#5 ++ (rs ++ (0b111#3 ++ off5))) (.jst rs off5) ∧
    IsWordOf (0b10100#5 ++ (rs ++ (0b110#3 ++ off5))) (.jvt rs off5) ∧
    (CompletesUnless (Field5Ok s off5) (exec (.jst rs off5) s) .longFormHighBits fun t =>
      WritesNoWord s t ∧ SameFlags s t ∧
      ∀ table, addWords (pcPlus s 1) (value5 s off5) = table →
        t.pc = addWords table (wordAt s (addWords table (s.reg rs)))) ∧
    (CompletesUnless (Field5Ok s off5) (exec (.jvt rs off5) s) .longFormHighBits fun t =>
      WritesNoWord s t ∧ SameFlags s t ∧
      t.pc = addWords (s.reg rs) (wordAt s (addWords (s.reg rs) (value5 s off5))))

/-- R163, R173: JAL Rd and then JR Rd, 0 comes back to the instruction after the JAL. That JR reads Rs is the spec's
own correction (90_conflicts.md C4, log 21). -/
def Obligations.CallThenReturn : Prop :=
  ∀ (s : State) (rd : RegNum) (off8 : BitVec 8), Field8Ok s off8 →
    ∃ t, execAll [.jal rd off8, .jr rd 0#5] s = .next t ∧ t.pc = pcPlus s 1 ∧ SameFlags s t ∧
      WritesRegister s t rd (pcPlus s 1)

/-- R259, R162 with the default HALT (logs 14 and 34): a halted state steps to a halted state at the same PC, for
ever, with memory, W, the flags and the bus unchanged. -/
def Obligations.HaltedStateStaysHalted : Prop :=
  ∀ s : State, s.halted = true →
    ∃ t, step s = .next t ∧ t.halted = true ∧ t.pc = s.pc ∧ SameFlags s t ∧ WritesNoWord s t

/-! ## Pseudo-instructions -/

/-- R240: MOV copies, sets Z and S and makes C and V UNDEFINED; with one register it is no word at all. -/
def Obligations.MovCopiesARegister : Prop :=
  ∀ (s : State) (rd rs : RegNum),
    (rd = rs → (Pseudo.mov rd rs).expand = []) ∧
    (rd ≠ rs → (Pseudo.mov rd rs).expand = [.and rd rs rs] ∧
      ∃ t, execAll (Pseudo.mov rd rs).expand s = .next t ∧ t.pc = pcPlus s 1 ∧
        WritesRegister s t rd (s.reg rs) ∧ LogicFlags t (s.reg rs))

/-- R242: XCHG exchanges two defined registers by three XORs; Z and S are of the new Ra. -/
def Obligations.XchgExchangesTwoRegisters : Prop :=
  ∀ (s : State) (ra rb : RegNum) (a b : Word),
    (ra = rb → (Pseudo.xchg ra rb).expand = []) ∧
    (ra ≠ rb → (Pseudo.xchg ra rb).expand = [.xor ra ra rb, .xor rb rb ra, .xor ra ra rb]) ∧
    (ra ≠ rb → s.reg ra = .defined a → s.reg rb = .defined b →
      ∃ t, execAll (Pseudo.xchg ra rb).expand s = .next t ∧ t.pc = pcPlus s 3 ∧
        t.reg ra = .defined b ∧ t.reg rb = .defined a ∧ LogicFlags t (.defined b) ∧
        (∀ x, x ≠ s.regAddr ra → x ≠ s.regAddr rb → t.memRead x = s.memRead x) ∧
        t.w = s.w ∧ NoBusCycle s t ∧ ExtCleared t)

/-- R241: RORI rotates right by its amount, in one word for the amounts 8 to 15 and in two for 0 to 7. The count of
words is the spec's decision D22 (log 31); the rotation is ROLI's, which the spec rebuilt (log 20) with the slice it
corrects (90_conflicts.md C7, log 21). -/
def Obligations.RoriRotatesRight : Prop :=
  ∀ (s : State) (rd ra : RegNum) (n : Fin 16), s.hasExt13 = false →
    (Pseudo.rori rd ra n).expand.length = (if 8 ≤ n.val then 1 else 2) ∧
    ∃ t, execAll (Pseudo.rori rd ra n).expand s = .next t ∧
      WritesRegister s t rd ((s.reg ra).map fun x =>
        BitVec.ofNat 16 (x.toNat / 2 ^ n.val + x.toNat * 2 ^ (16 - n.val) % 65536)) ∧
      LogicFlags t ((s.reg ra).map fun x =>
        BitVec.ofNat 16 (x.toNat / 2 ^ n.val + x.toNat * 2 ^ (16 - n.val) % 65536))

/-- R94 as the spec derives it, with the short form wherever it reaches (D22, logs 31 and 33). With no EXTI before,
the words that the assembler makes of any instruction `mk` with an operand `v` run as that instruction in a state `u`
(the one before, or the one after the EXTI) where its field is allowed and stands for `v`; and those it makes for a
label, as a jump whose target is the label. The last five clauses run an instruction of each kind. The short forms are
those of decode_imm_al as the spec reads it (N3, log 22) and the long form of SLLI is its correction C10 (log 19). -/
def Obligations.AssembledOperandsAreReached : Prop :=
  ∀ (s : State) (rd ra : RegNum) (v : Word), s.hasExt13 = false →
    (∀ mk : BitVec 5 → Instr, ∃ u f, execAll (assemble5 mk v) s = exec (mk f) u ∧
      (u = s ∨ exec (extendFor v) s = .next u) ∧ Field5Ok u f ∧ value5 u f = .defined v) ∧
    (∀ mk : BitVec 8 → Instr, ∃ u f, execAll (assemble8 mk v) s = exec (mk f) u ∧
      (u = s ∨ exec (extendFor v) s = .next u) ∧ Field8Ok u f ∧ value8 u f = .defined v) ∧
    (∀ mk : BitVec 3 → Instr, ∃ u f, execAll (assembleAlu mk v) s = exec (mk f) u ∧
      (u = s ∨ exec (extendFor v) s = .next u) ∧
      (AluFieldOk u f ∧ aluValue u f = .defined v ∨ u = s ∧ f = 3#3 ∧ Config.immAl3 = some v)) ∧
    (∀ mk : BitVec 3 → Instr, ∃ u f, execAll (assembleShift mk v) s = exec (mk f) u ∧
      (u = s ∨ exec (extendFor v) s = .next u) ∧ shiftValue u f = .defined v) ∧
    (∀ (mk : BitVec 8 → Instr) (p : Word), s.pc = .defined p →
      ∃ u f e, execAll (assembleLabel mk p v) s = exec (mk f) u ∧
        (u = s ∨ exec (.exti e) s = .next u) ∧ Field8Ok u f ∧
        addWords (pcPlus u 1) (value8 u f) = .defined v) ∧
    (∃ t, execAll (assemble5 (.ld rd ra) v) s = .next t ∧ SameFlags s t ∧
      WritesRegister s t rd (wordAt s (addWords (s.reg ra) (.defined v)))) ∧
    (∃ t, execAll (assemble8 (.movi rd) v) s = .next t ∧ WritesRegister s t rd (.defined v) ∧ SameFlags s t) ∧
    (∃ t, execAll (assembleAlu (.addi rd ra) v) s = .next t ∧
      WritesRegister s t rd (sumWord (s.reg ra) (.defined v) (.defined false)) ∧
      SumFlags t (s.reg ra) (.defined v) (.defined false)) ∧
    (v.toNat ≤ 15 → ∃ t, execAll (assembleShift (.slli rd ra) v) s = .next t ∧
      WritesRegister s t rd ((s.reg ra).map (sllWord v.toNat)) ∧
      LogicFlags t ((s.reg ra).map (sllWord v.toNat))) ∧
    (∀ p : Word, s.pc = .defined p → ∃ t, execAll (assembleLabel .j p v) s = .next t ∧ t.pc = .defined v ∧
      SameFlags s t ∧ WritesNoWord s t)
end

