-- ==== Sys2Proof/Laws/Encoding.lean ====
section
/-! SUPPORT. What each format's fields read as in the word it makes, and the constant bits of a word: the small lemmas
of the encoder. -/

namespace Sys2Proof

open BitVec (eq_of_getLsbD_eq getLsbD_extractLsb')

/-! ## Fields -/

theorem formatR_fields (op : BitVec 5) (rd ra : RegNum) (ty : BitVec 2) (rb : BitVec 3) :
    (formatR op rd ra ty rb).extractLsb' 11 5 = op ∧ (formatR op rd ra ty rb).extractLsb' 8 3 = rd ∧
    (formatR op rd ra ty rb).extractLsb' 5 3 = ra ∧ (formatR op rd ra ty rb).extractLsb' 3 2 = ty ∧
    (formatR op rd ra ty rb).extractLsb' 0 3 = rb := by
  refine ⟨?_, ?_, ?_, ?_, ?_⟩ <;>
    (unfold formatR; apply eq_of_getLsbD_eq; intro i hi; simp [getLsbD_extractLsb']; grind)

theorem formatM_fields (op : BitVec 5) (rsd : RegNum) (ra : BitVec 3) (off5 : BitVec 5) :
    (formatM op rsd ra off5).extractLsb' 11 5 = op ∧ (formatM op rsd ra off5).extractLsb' 8 3 = rsd ∧
    (formatM op rsd ra off5).extractLsb' 5 3 = ra ∧ (formatM op rsd ra off5).extractLsb' 0 5 = off5 := by
  refine ⟨?_, ?_, ?_, ?_⟩ <;>
    (unfold formatM; apply eq_of_getLsbD_eq; intro i hi; simp [getLsbD_extractLsb']; grind)

theorem formatI8_fields (op : BitVec 5) (rsd : RegNum) (imm8 : BitVec 8) :
    (formatI8 op rsd imm8).extractLsb' 11 5 = op ∧ (formatI8 op rsd imm8).extractLsb' 8 3 = rsd ∧
    (formatI8 op rsd imm8).extractLsb' 0 8 = imm8 := by
  refine ⟨?_, ?_, ?_⟩ <;>
    (unfold formatI8; apply eq_of_getLsbD_eq; intro i hi; simp [getLsbD_extractLsb']; grind)

theorem formatC_fields (cond : BitVec 4) (off8 : BitVec 8) :
    (formatC cond off8).extractLsb' 11 5 = 0b1011#4 ++ cond.extractLsb' 3 1 ∧
    (formatC cond off8).extractLsb' 8 4 = cond ∧ (formatC cond off8).extractLsb' 0 8 = off8 := by
  refine ⟨?_, ?_, ?_⟩ <;>
    (unfold formatC; apply eq_of_getLsbD_eq; intro i hi; simp [getLsbD_extractLsb']; grind)

theorem formatX_fields (imm13 : BitVec 13) :
    (formatX imm13).extractLsb' 11 5 = 0b110#3 ++ imm13.extractLsb' 11 2 ∧
    (formatX imm13).extractLsb' 0 13 = imm13 := by
  refine ⟨?_, ?_⟩ <;>
    (unfold formatX; apply eq_of_getLsbD_eq; intro i hi; simp [getLsbD_extractLsb']; grind)

theorem plainLow_fields (rb : RegNum) :
    (plainLow rb).extractLsb' 0 3 = rb ∧ (plainLow rb).extractLsb' 3 2 = 0#2 := by
  revert rb; decide

/-! ## Masks, field by field -/

theorem formatR_and (op op' : BitVec 5) (rd rd' ra ra' : RegNum) (ty ty' : BitVec 2) (rb rb' : BitVec 3) :
    formatR op rd ra ty rb &&& formatR op' rd' ra' ty' rb' =
      formatR (op &&& op') (rd &&& rd') (ra &&& ra') (ty &&& ty') (rb &&& rb') := by
  unfold formatR; apply eq_of_getLsbD_eq; intro i hi; simp; grind

theorem formatM_and (op op' : BitVec 5) (rsd rsd' : RegNum) (ra ra' : BitVec 3) (off5 off5' : BitVec 5) :
    formatM op rsd ra off5 &&& formatM op' rsd' ra' off5' =
      formatM (op &&& op') (rsd &&& rsd') (ra &&& ra') (off5 &&& off5') := by
  unfold formatM; apply eq_of_getLsbD_eq; intro i hi; simp; grind

theorem formatI8_and (op op' : BitVec 5) (rsd rsd' : RegNum) (imm8 imm8' : BitVec 8) :
    formatI8 op rsd imm8 &&& formatI8 op' rsd' imm8' =
      formatI8 (op &&& op') (rsd &&& rsd') (imm8 &&& imm8') := by
  unfold formatI8; apply eq_of_getLsbD_eq; intro i hi; simp; grind

theorem wordC_and (k k' cond cond' : BitVec 4) (off8 off8' : BitVec 8) :
    ((k ++ (cond ++ off8) : Word) &&& (k' ++ (cond' ++ off8') : Word)) =
      (k &&& k') ++ ((cond &&& cond') ++ (off8 &&& off8')) := by
  apply eq_of_getLsbD_eq; intro i hi; simp; grind

theorem formatC_and (cond cond' : BitVec 4) (off8 off8' : BitVec 8) :
    (formatC cond off8 &&& (0b1111#4 ++ (cond' ++ off8') : Word)) = formatC (cond &&& cond') (off8 &&& off8') :=
  wordC_and 0b1011#4 0b1111#4 cond cond' off8 off8'

theorem wordX_and (k k' : BitVec 3) (imm13 imm13' : BitVec 13) :
    ((k ++ imm13 : Word) &&& (k' ++ imm13' : Word)) = (k &&& k') ++ (imm13 &&& imm13') := by
  apply eq_of_getLsbD_eq; intro i hi; simp; grind

theorem formatX_and (imm13 imm13' : BitVec 13) :
    (formatX imm13 &&& (0b111#3 ++ imm13' : Word)) = formatX (imm13 &&& imm13') :=
  wordX_and 0b110#3 0b111#3 imm13 imm13'

theorem plainLow_and (rb : RegNum) : plainLow rb &&& 0b11000#5 = 0#5 := by revert rb; decide

end Sys2Proof
end

