-- ==== Sys2Proof/Laws/State.lean ====
section
/-! SUPPORT. One lemma per field and update of the state, all true by rfl, and how reads of memory and registers
pass through the updates. No later proof unfolds an update. -/

namespace Sys2Proof.Machine

/-! ## memWrite -/

@[simp] theorem State.memWrite_pc (s : State) (a : Word) (v : Content Word) : (s.memWrite a v).pc = s.pc := rfl
@[simp] theorem State.memWrite_w (s : State) (a : Word) (v : Content Word) : (s.memWrite a v).w = s.w := rfl
@[simp] theorem State.memWrite_flagZ (s : State) (a : Word) (v : Content Word) : (s.memWrite a v).flagZ = s.flagZ := rfl
@[simp] theorem State.memWrite_flagS (s : State) (a : Word) (v : Content Word) : (s.memWrite a v).flagS = s.flagS := rfl
@[simp] theorem State.memWrite_flagC (s : State) (a : Word) (v : Content Word) : (s.memWrite a v).flagC = s.flagC := rfl
@[simp] theorem State.memWrite_flagV (s : State) (a : Word) (v : Content Word) : (s.memWrite a v).flagV = s.flagV := rfl
@[simp] theorem State.memWrite_ext13 (s : State) (a : Word) (v : Content Word) : (s.memWrite a v).ext13 = s.ext13 := rfl
@[simp] theorem State.memWrite_hasExt13 (s : State) (a : Word) (v : Content Word) : (s.memWrite a v).hasExt13 = s.hasExt13 := rfl
@[simp] theorem State.memWrite_mem (s : State) (a : Word) (v : Content Word) : (s.memWrite a v).mem = s.mem.write a.toNat v := rfl
@[simp] theorem State.memWrite_extTrace (s : State) (a : Word) (v : Content Word) : (s.memWrite a v).extTrace = s.extTrace := rfl
@[simp] theorem State.memWrite_drawIndex (s : State) (a : Word) (v : Content Word) : (s.memWrite a v).drawIndex = s.drawIndex := rfl

/-! ## setReg -/

@[simp] theorem State.setReg_pc (s : State) (r : RegNum) (v : Content Word) : (s.setReg r v).pc = s.pc := rfl
@[simp] theorem State.setReg_w (s : State) (r : RegNum) (v : Content Word) : (s.setReg r v).w = s.w := rfl
@[simp] theorem State.setReg_flagZ (s : State) (r : RegNum) (v : Content Word) : (s.setReg r v).flagZ = s.flagZ := rfl
@[simp] theorem State.setReg_flagS (s : State) (r : RegNum) (v : Content Word) : (s.setReg r v).flagS = s.flagS := rfl
@[simp] theorem State.setReg_flagC (s : State) (r : RegNum) (v : Content Word) : (s.setReg r v).flagC = s.flagC := rfl
@[simp] theorem State.setReg_flagV (s : State) (r : RegNum) (v : Content Word) : (s.setReg r v).flagV = s.flagV := rfl
@[simp] theorem State.setReg_ext13 (s : State) (r : RegNum) (v : Content Word) : (s.setReg r v).ext13 = s.ext13 := rfl
@[simp] theorem State.setReg_hasExt13 (s : State) (r : RegNum) (v : Content Word) : (s.setReg r v).hasExt13 = s.hasExt13 := rfl
@[simp] theorem State.setReg_mem (s : State) (r : RegNum) (v : Content Word) : (s.setReg r v).mem = s.mem.write (s.regAddr r).toNat v := rfl
@[simp] theorem State.setReg_extTrace (s : State) (r : RegNum) (v : Content Word) : (s.setReg r v).extTrace = s.extTrace := rfl
@[simp] theorem State.setReg_drawIndex (s : State) (r : RegNum) (v : Content Word) : (s.setReg r v).drawIndex = s.drawIndex := rfl

/-! ## setWindow -/

@[simp] theorem State.setWindow_pc (s : State) (t : Word) : (s.setWindow t).pc = s.pc := rfl
@[simp] theorem State.setWindow_w (s : State) (t : Word) : (s.setWindow t).w = t := rfl
@[simp] theorem State.setWindow_flagZ (s : State) (t : Word) : (s.setWindow t).flagZ = s.flagZ := rfl
@[simp] theorem State.setWindow_flagS (s : State) (t : Word) : (s.setWindow t).flagS = s.flagS := rfl
@[simp] theorem State.setWindow_flagC (s : State) (t : Word) : (s.setWindow t).flagC = s.flagC := rfl
@[simp] theorem State.setWindow_flagV (s : State) (t : Word) : (s.setWindow t).flagV = s.flagV := rfl
@[simp] theorem State.setWindow_ext13 (s : State) (t : Word) : (s.setWindow t).ext13 = s.ext13 := rfl
@[simp] theorem State.setWindow_hasExt13 (s : State) (t : Word) : (s.setWindow t).hasExt13 = s.hasExt13 := rfl
@[simp] theorem State.setWindow_mem (s : State) (t : Word) : (s.setWindow t).mem = s.mem := rfl
@[simp] theorem State.setWindow_extTrace (s : State) (t : Word) : (s.setWindow t).extTrace = s.extTrace := rfl
@[simp] theorem State.setWindow_drawIndex (s : State) (t : Word) : (s.setWindow t).drawIndex = s.drawIndex := rfl

/-! ## recordExtRead -/

@[simp] theorem State.recordExtRead_pc (s : State) (a : Word) : (s.recordExtRead a).pc = s.pc := rfl
@[simp] theorem State.recordExtRead_w (s : State) (a : Word) : (s.recordExtRead a).w = s.w := rfl
@[simp] theorem State.recordExtRead_flagZ (s : State) (a : Word) : (s.recordExtRead a).flagZ = s.flagZ := rfl
@[simp] theorem State.recordExtRead_flagS (s : State) (a : Word) : (s.recordExtRead a).flagS = s.flagS := rfl
@[simp] theorem State.recordExtRead_flagC (s : State) (a : Word) : (s.recordExtRead a).flagC = s.flagC := rfl
@[simp] theorem State.recordExtRead_flagV (s : State) (a : Word) : (s.recordExtRead a).flagV = s.flagV := rfl
@[simp] theorem State.recordExtRead_ext13 (s : State) (a : Word) : (s.recordExtRead a).ext13 = s.ext13 := rfl
@[simp] theorem State.recordExtRead_hasExt13 (s : State) (a : Word) : (s.recordExtRead a).hasExt13 = s.hasExt13 := rfl
@[simp] theorem State.recordExtRead_mem (s : State) (a : Word) : (s.recordExtRead a).mem = s.mem := rfl
@[simp] theorem State.recordExtRead_extTrace (s : State) (a : Word) : (s.recordExtRead a).extTrace = s.extTrace ++ [.read a (s.extAnswer a)] := rfl
@[simp] theorem State.recordExtRead_drawIndex (s : State) (a : Word) : (s.recordExtRead a).drawIndex = s.drawIndex := rfl

/-! ## extWrite -/

@[simp] theorem State.extWrite_pc (s : State) (a v : Word) : (s.extWrite a v).pc = s.pc := rfl
@[simp] theorem State.extWrite_w (s : State) (a v : Word) : (s.extWrite a v).w = s.w := rfl
@[simp] theorem State.extWrite_flagZ (s : State) (a v : Word) : (s.extWrite a v).flagZ = s.flagZ := rfl
@[simp] theorem State.extWrite_flagS (s : State) (a v : Word) : (s.extWrite a v).flagS = s.flagS := rfl
@[simp] theorem State.extWrite_flagC (s : State) (a v : Word) : (s.extWrite a v).flagC = s.flagC := rfl
@[simp] theorem State.extWrite_flagV (s : State) (a v : Word) : (s.extWrite a v).flagV = s.flagV := rfl
@[simp] theorem State.extWrite_ext13 (s : State) (a v : Word) : (s.extWrite a v).ext13 = s.ext13 := rfl
@[simp] theorem State.extWrite_hasExt13 (s : State) (a v : Word) : (s.extWrite a v).hasExt13 = s.hasExt13 := rfl
@[simp] theorem State.extWrite_mem (s : State) (a v : Word) : (s.extWrite a v).mem = s.mem := rfl
@[simp] theorem State.extWrite_extTrace (s : State) (a v : Word) : (s.extWrite a v).extTrace = s.extTrace ++ [.write a v] := rfl
@[simp] theorem State.extWrite_drawIndex (s : State) (a v : Word) : (s.extWrite a v).drawIndex = s.drawIndex := rfl

/-! ## clearExt -/

@[simp] theorem State.clearExt_pc (s : State) : (s.clearExt).pc = s.pc := rfl
@[simp] theorem State.clearExt_w (s : State) : (s.clearExt).w = s.w := rfl
@[simp] theorem State.clearExt_flagZ (s : State) : (s.clearExt).flagZ = s.flagZ := rfl
@[simp] theorem State.clearExt_flagS (s : State) : (s.clearExt).flagS = s.flagS := rfl
@[simp] theorem State.clearExt_flagC (s : State) : (s.clearExt).flagC = s.flagC := rfl
@[simp] theorem State.clearExt_flagV (s : State) : (s.clearExt).flagV = s.flagV := rfl
@[simp] theorem State.clearExt_ext13 (s : State) : (s.clearExt).ext13 = .undefined := rfl
@[simp] theorem State.clearExt_hasExt13 (s : State) : (s.clearExt).hasExt13 = false := rfl
@[simp] theorem State.clearExt_mem (s : State) : (s.clearExt).mem = s.mem := rfl
@[simp] theorem State.clearExt_extTrace (s : State) : (s.clearExt).extTrace = s.extTrace := rfl
@[simp] theorem State.clearExt_drawIndex (s : State) : (s.clearExt).drawIndex = s.drawIndex + 1 := rfl

/-! ## jump -/

@[simp] theorem State.jump_pc (s : State) (t : Content Word) : (s.jump t).pc = t := rfl
@[simp] theorem State.jump_w (s : State) (t : Content Word) : (s.jump t).w = s.w := rfl
@[simp] theorem State.jump_flagZ (s : State) (t : Content Word) : (s.jump t).flagZ = s.flagZ := rfl
@[simp] theorem State.jump_flagS (s : State) (t : Content Word) : (s.jump t).flagS = s.flagS := rfl
@[simp] theorem State.jump_flagC (s : State) (t : Content Word) : (s.jump t).flagC = s.flagC := rfl
@[simp] theorem State.jump_flagV (s : State) (t : Content Word) : (s.jump t).flagV = s.flagV := rfl
@[simp] theorem State.jump_ext13 (s : State) (t : Content Word) : (s.jump t).ext13 = .undefined := rfl
@[simp] theorem State.jump_hasExt13 (s : State) (t : Content Word) : (s.jump t).hasExt13 = false := rfl
@[simp] theorem State.jump_mem (s : State) (t : Content Word) : (s.jump t).mem = s.mem := rfl
@[simp] theorem State.jump_extTrace (s : State) (t : Content Word) : (s.jump t).extTrace = s.extTrace := rfl
@[simp] theorem State.jump_drawIndex (s : State) (t : Content Word) : (s.jump t).drawIndex = s.drawIndex + 1 := rfl

/-! ## advance -/

@[simp] theorem State.advance_pc (s : State) : (s.advance).pc = s.nextPc := rfl
@[simp] theorem State.advance_w (s : State) : (s.advance).w = s.w := rfl
@[simp] theorem State.advance_flagZ (s : State) : (s.advance).flagZ = s.flagZ := rfl
@[simp] theorem State.advance_flagS (s : State) : (s.advance).flagS = s.flagS := rfl
@[simp] theorem State.advance_flagC (s : State) : (s.advance).flagC = s.flagC := rfl
@[simp] theorem State.advance_flagV (s : State) : (s.advance).flagV = s.flagV := rfl
@[simp] theorem State.advance_ext13 (s : State) : (s.advance).ext13 = .undefined := rfl
@[simp] theorem State.advance_hasExt13 (s : State) : (s.advance).hasExt13 = false := rfl
@[simp] theorem State.advance_mem (s : State) : (s.advance).mem = s.mem := rfl
@[simp] theorem State.advance_extTrace (s : State) : (s.advance).extTrace = s.extTrace := rfl
@[simp] theorem State.advance_drawIndex (s : State) : (s.advance).drawIndex = s.drawIndex + 1 := rfl

/-! ## extend -/

@[simp] theorem State.extend_pc (s : State) (e : BitVec 13) : (s.extend e).pc = s.nextPc := rfl
@[simp] theorem State.extend_w (s : State) (e : BitVec 13) : (s.extend e).w = s.w := rfl
@[simp] theorem State.extend_flagZ (s : State) (e : BitVec 13) : (s.extend e).flagZ = s.flagZ := rfl
@[simp] theorem State.extend_flagS (s : State) (e : BitVec 13) : (s.extend e).flagS = s.flagS := rfl
@[simp] theorem State.extend_flagC (s : State) (e : BitVec 13) : (s.extend e).flagC = s.flagC := rfl
@[simp] theorem State.extend_flagV (s : State) (e : BitVec 13) : (s.extend e).flagV = s.flagV := rfl
@[simp] theorem State.extend_ext13 (s : State) (e : BitVec 13) : (s.extend e).ext13 = .defined e := rfl
@[simp] theorem State.extend_hasExt13 (s : State) (e : BitVec 13) : (s.extend e).hasExt13 = true := rfl
@[simp] theorem State.extend_mem (s : State) (e : BitVec 13) : (s.extend e).mem = s.mem := rfl
@[simp] theorem State.extend_extTrace (s : State) (e : BitVec 13) : (s.extend e).extTrace = s.extTrace := rfl
@[simp] theorem State.extend_drawIndex (s : State) (e : BitVec 13) : (s.extend e).drawIndex = s.drawIndex + 1 := rfl

/-! ## setArithFlags -/

@[simp] theorem State.setArithFlags_pc (s : State) (o : Content AluOut) : (s.setArithFlags o).pc = s.pc := rfl
@[simp] theorem State.setArithFlags_w (s : State) (o : Content AluOut) : (s.setArithFlags o).w = s.w := rfl
@[simp] theorem State.setArithFlags_flagZ (s : State) (o : Content AluOut) : (s.setArithFlags o).flagZ = o.map AluOut.z := rfl
@[simp] theorem State.setArithFlags_flagS (s : State) (o : Content AluOut) : (s.setArithFlags o).flagS = o.map AluOut.s := rfl
@[simp] theorem State.setArithFlags_flagC (s : State) (o : Content AluOut) : (s.setArithFlags o).flagC = o.map AluOut.c := rfl
@[simp] theorem State.setArithFlags_flagV (s : State) (o : Content AluOut) : (s.setArithFlags o).flagV = o.map AluOut.v := rfl
@[simp] theorem State.setArithFlags_ext13 (s : State) (o : Content AluOut) : (s.setArithFlags o).ext13 = s.ext13 := rfl
@[simp] theorem State.setArithFlags_hasExt13 (s : State) (o : Content AluOut) : (s.setArithFlags o).hasExt13 = s.hasExt13 := rfl
@[simp] theorem State.setArithFlags_mem (s : State) (o : Content AluOut) : (s.setArithFlags o).mem = s.mem := rfl
@[simp] theorem State.setArithFlags_extTrace (s : State) (o : Content AluOut) : (s.setArithFlags o).extTrace = s.extTrace := rfl
@[simp] theorem State.setArithFlags_drawIndex (s : State) (o : Content AluOut) : (s.setArithFlags o).drawIndex = s.drawIndex := rfl

/-! ## setLogicFlags -/

@[simp] theorem State.setLogicFlags_pc (s : State) (r : Content Word) : (s.setLogicFlags r).pc = s.pc := rfl
@[simp] theorem State.setLogicFlags_w (s : State) (r : Content Word) : (s.setLogicFlags r).w = s.w := rfl
@[simp] theorem State.setLogicFlags_flagZ (s : State) (r : Content Word) : (s.setLogicFlags r).flagZ = r.map zeroFlag := rfl
@[simp] theorem State.setLogicFlags_flagS (s : State) (r : Content Word) : (s.setLogicFlags r).flagS = r.map signFlag := rfl
@[simp] theorem State.setLogicFlags_flagC (s : State) (r : Content Word) : (s.setLogicFlags r).flagC = .undefined := rfl
@[simp] theorem State.setLogicFlags_flagV (s : State) (r : Content Word) : (s.setLogicFlags r).flagV = .undefined := rfl
@[simp] theorem State.setLogicFlags_ext13 (s : State) (r : Content Word) : (s.setLogicFlags r).ext13 = s.ext13 := rfl
@[simp] theorem State.setLogicFlags_hasExt13 (s : State) (r : Content Word) : (s.setLogicFlags r).hasExt13 = s.hasExt13 := rfl
@[simp] theorem State.setLogicFlags_mem (s : State) (r : Content Word) : (s.setLogicFlags r).mem = s.mem := rfl
@[simp] theorem State.setLogicFlags_extTrace (s : State) (r : Content Word) : (s.setLogicFlags r).extTrace = s.extTrace := rfl
@[simp] theorem State.setLogicFlags_drawIndex (s : State) (r : Content Word) : (s.setLogicFlags r).drawIndex = s.drawIndex := rfl

/-! ## The next PC through the updates that leave PC alone -/

@[simp] theorem State.memWrite_nextPc (s : State) (a : Word) (v : Content Word) : (s.memWrite a v).nextPc = s.nextPc := rfl
@[simp] theorem State.setReg_nextPc (s : State) (r : RegNum) (v : Content Word) : (s.setReg r v).nextPc = s.nextPc := rfl
@[simp] theorem State.setWindow_nextPc (s : State) (t : Word) : (s.setWindow t).nextPc = s.nextPc := rfl
@[simp] theorem State.recordExtRead_nextPc (s : State) (a : Word) : (s.recordExtRead a).nextPc = s.nextPc := rfl
@[simp] theorem State.extWrite_nextPc (s : State) (a v : Word) : (s.extWrite a v).nextPc = s.nextPc := rfl
@[simp] theorem State.clearExt_nextPc (s : State) : (s.clearExt).nextPc = s.nextPc := rfl
@[simp] theorem State.setArithFlags_nextPc (s : State) (o : Content AluOut) : (s.setArithFlags o).nextPc = s.nextPc := rfl
@[simp] theorem State.setLogicFlags_nextPc (s : State) (r : Content Word) : (s.setLogicFlags r).nextPc = s.nextPc := rfl

/-! ## Reads of memory and registers through the updates that leave `mem` and W alone -/

@[simp] theorem State.memWrite_regAddr (s : State) (a : Word) (v : Content Word) (q : RegNum) : (s.memWrite a v).regAddr q = s.regAddr q := rfl
@[simp] theorem State.setReg_regAddr (s : State) (r : RegNum) (v : Content Word) (q : RegNum) : (s.setReg r v).regAddr q = s.regAddr q := rfl
@[simp] theorem State.setWindow_memRead (s : State) (t : Word) (b : Word) : (s.setWindow t).memRead b = s.memRead b := rfl
@[simp] theorem State.recordExtRead_memRead (s : State) (a : Word) (b : Word) : (s.recordExtRead a).memRead b = s.memRead b := rfl
@[simp] theorem State.recordExtRead_regAddr (s : State) (a : Word) (q : RegNum) : (s.recordExtRead a).regAddr q = s.regAddr q := rfl
@[simp] theorem State.recordExtRead_reg (s : State) (a : Word) (q : RegNum) : (s.recordExtRead a).reg q = s.reg q := rfl
@[simp] theorem State.extWrite_memRead (s : State) (a v : Word) (b : Word) : (s.extWrite a v).memRead b = s.memRead b := rfl
@[simp] theorem State.extWrite_regAddr (s : State) (a v : Word) (q : RegNum) : (s.extWrite a v).regAddr q = s.regAddr q := rfl
@[simp] theorem State.extWrite_reg (s : State) (a v : Word) (q : RegNum) : (s.extWrite a v).reg q = s.reg q := rfl
@[simp] theorem State.clearExt_memRead (s : State) (b : Word) : (s.clearExt).memRead b = s.memRead b := rfl
@[simp] theorem State.clearExt_regAddr (s : State) (q : RegNum) : (s.clearExt).regAddr q = s.regAddr q := rfl
@[simp] theorem State.clearExt_reg (s : State) (q : RegNum) : (s.clearExt).reg q = s.reg q := rfl
@[simp] theorem State.jump_memRead (s : State) (t : Content Word) (b : Word) : (s.jump t).memRead b = s.memRead b := rfl
@[simp] theorem State.jump_regAddr (s : State) (t : Content Word) (q : RegNum) : (s.jump t).regAddr q = s.regAddr q := rfl
@[simp] theorem State.jump_reg (s : State) (t : Content Word) (q : RegNum) : (s.jump t).reg q = s.reg q := rfl
@[simp] theorem State.advance_memRead (s : State) (b : Word) : (s.advance).memRead b = s.memRead b := rfl
@[simp] theorem State.advance_regAddr (s : State) (q : RegNum) : (s.advance).regAddr q = s.regAddr q := rfl
@[simp] theorem State.advance_reg (s : State) (q : RegNum) : (s.advance).reg q = s.reg q := rfl
@[simp] theorem State.extend_memRead (s : State) (e : BitVec 13) (b : Word) : (s.extend e).memRead b = s.memRead b := rfl
@[simp] theorem State.extend_regAddr (s : State) (e : BitVec 13) (q : RegNum) : (s.extend e).regAddr q = s.regAddr q := rfl
@[simp] theorem State.extend_reg (s : State) (e : BitVec 13) (q : RegNum) : (s.extend e).reg q = s.reg q := rfl
@[simp] theorem State.setArithFlags_memRead (s : State) (o : Content AluOut) (b : Word) : (s.setArithFlags o).memRead b = s.memRead b := rfl
@[simp] theorem State.setArithFlags_regAddr (s : State) (o : Content AluOut) (q : RegNum) : (s.setArithFlags o).regAddr q = s.regAddr q := rfl
@[simp] theorem State.setArithFlags_reg (s : State) (o : Content AluOut) (q : RegNum) : (s.setArithFlags o).reg q = s.reg q := rfl
@[simp] theorem State.setLogicFlags_memRead (s : State) (r : Content Word) (b : Word) : (s.setLogicFlags r).memRead b = s.memRead b := rfl
@[simp] theorem State.setLogicFlags_regAddr (s : State) (r : Content Word) (q : RegNum) : (s.setLogicFlags r).regAddr q = s.regAddr q := rfl
@[simp] theorem State.setLogicFlags_reg (s : State) (r : Content Word) (q : RegNum) : (s.setLogicFlags r).reg q = s.reg q := rfl

end Sys2Proof.Machine
end

