-- ==== Sys2Proof/Laws/Memory.lean ====
section
/-! SUPPORT. Memory: a read after a write, the words a write leaves alone, and the canonical form, which every
memory operation keeps. -/

namespace Sys2Proof.Machine

/-! ## Reads after writes, for any list of cells -/

theorem Memory.lookup_insert (m : Memory) (a b : Nat) (v : Word) :
    (m.insert a v).lookup b = if b = a then .defined v else m.lookup b := by
  induction m with
  | nil => simp [Memory.insert, Memory.lookup, eq_comm]
  | cons c rest ih =>
    obtain ⟨k, u⟩ := c
    simp only [Memory.insert]
    split
    · next h => subst h; by_cases hb : b = k <;> simp [Memory.lookup, hb, eq_comm]
    · next h =>
      split
      · by_cases hb : b = a
        · simp [Memory.lookup, hb]
        · simp [Memory.lookup, hb, Ne.symm hb, eq_comm]
      · simp only [Memory.lookup, ih]
        by_cases hb : b = a
        · subst hb; simp [h]
        · simp [hb]

theorem Memory.lookup_erase (m : Memory) (a b : Nat) :
    (m.erase a).lookup b = if b = a then .undefined else m.lookup b := by
  induction m with
  | nil => simp [Memory.erase, Memory.lookup]
  | cons c rest ih =>
    obtain ⟨k, u⟩ := c
    simp only [Memory.erase]
    split
    · next h =>
      subst h
      rw [ih]
      by_cases hb : b = k
      · simp [hb]
      · simp [Memory.lookup, hb, eq_comm]
    · next h =>
      simp only [Memory.lookup, ih]
      by_cases hb : b = a
      · subst hb; simp [h]
      · simp [hb]

/-- All a write to memory does to the reads. -/
theorem Memory.lookup_write (m : Memory) (a b : Nat) (v : Content Word) :
    (m.write a v).lookup b = if b = a then v else m.lookup b := by
  cases v with
  | defined v => exact Memory.lookup_insert m a b v
  | undefined => exact Memory.lookup_erase m a b

/-! ## The canonical form -/

theorem Memory.wfFrom_mono {m : Memory} {lo hi : Nat} (h : hi ≤ lo) (hm : Memory.wfFrom lo m = true) :
    Memory.wfFrom hi m = true := by
  cases m with
  | nil => rfl
  | cons c rest =>
    simp only [Memory.wfFrom, Bool.and_eq_true, decide_eq_true_eq] at hm ⊢
    exact ⟨⟨by omega, hm.1.2⟩, hm.2⟩

theorem Memory.wfFrom_insert {m : Memory} {lo a : Nat} (v : Word) (hlo : lo ≤ a) (ha : a < 65536)
    (hm : Memory.wfFrom lo m = true) : Memory.wfFrom lo (m.insert a v) = true := by
  induction m generalizing lo with
  | nil => simp [Memory.insert, Memory.wfFrom, hlo, ha]
  | cons c rest ih =>
    obtain ⟨k, u⟩ := c
    simp only [Memory.wfFrom, Bool.and_eq_true, decide_eq_true_eq] at hm
    simp only [Memory.insert]
    split
    · next h => subst h; simp [Memory.wfFrom, hm.1.1, ha, hm.2]
    · split
      · next h => simp [Memory.wfFrom, hlo, ha, hm.1.2, hm.2]; omega
      · have := ih (lo := k + 1) (by omega) hm.2
        simp [Memory.wfFrom, hm.1.1, hm.1.2, this]

theorem Memory.wfFrom_erase {m : Memory} {lo : Nat} (a : Nat) (hm : Memory.wfFrom lo m = true) :
    Memory.wfFrom lo (m.erase a) = true := by
  induction m generalizing lo with
  | nil => rfl
  | cons c rest ih =>
    obtain ⟨k, u⟩ := c
    simp only [Memory.wfFrom, Bool.and_eq_true, decide_eq_true_eq] at hm
    simp only [Memory.erase]
    split
    · exact Memory.wfFrom_mono (by omega) (ih hm.2)
    · simp [Memory.wfFrom, hm.1.1, hm.1.2, ih hm.2]

/-- Storing a content keeps the canonical form. -/
theorem Memory.wf_write {m : Memory} {a : Nat} (v : Content Word) (ha : a < 65536)
    (hm : m.wf = true) : (m.write a v).wf = true := by
  cases v with
  | defined v => exact Memory.wfFrom_insert v (Nat.zero_le a) ha hm
  | undefined => exact Memory.wfFrom_erase a hm

/-- Below its first address a memory in canonical form lists nothing. -/
theorem Memory.lookup_lt_eq_undefined {m : Memory} {lo a : Nat} (hm : Memory.wfFrom lo m = true)
    (h : a < lo) : m.lookup a = .undefined := by
  induction m generalizing lo with
  | nil => rfl
  | cons c rest ih =>
    obtain ⟨k, u⟩ := c
    simp only [Memory.wfFrom, Bool.and_eq_true, decide_eq_true_eq] at hm
    have : ¬ k = a := by omega
    simp [Memory.lookup, this, ih hm.2 (by omega)]

/-! ## On the state -/

/-- All `MemWrite` does to `MemRead` (R50): the word written reads as the content, every other word as before. -/
theorem State.memRead_memWrite (s : State) (a b : Word) (v : Content Word) :
    (s.memWrite a v).memRead b = if b = a then v else s.memRead b := by
  show (s.mem.write a.toNat v).lookup b.toNat = _
  rw [Memory.lookup_write]
  simp only [BitVec.toNat_inj]
  rfl

@[simp] theorem State.memRead_memWrite_self (s : State) (a : Word) (v : Content Word) :
    (s.memWrite a v).memRead a = v := by
  simp [State.memRead_memWrite]

theorem State.memRead_memWrite_ne (s : State) {a b : Word} (v : Content Word) (h : b ≠ a) :
    (s.memWrite a v).memRead b = s.memRead b := by
  simp [State.memRead_memWrite, h]

/-- All a register write does to `MemRead`: R26 with R50. -/
theorem State.memRead_setReg (s : State) (r : RegNum) (b : Word) (v : Content Word) :
    (s.setReg r v).memRead b = if b = s.regAddr r then v else s.memRead b :=
  State.memRead_memWrite s (s.regAddr r) b v

/-- Eight registers, eight addresses: W + n wraps, but two numbers never meet (R26). -/
theorem State.regAddr_inj (s : State) {q r : RegNum} : s.regAddr q = s.regAddr r ↔ q = r := by
  constructor
  · intro h
    have h1 : q.setWidth 16 = r.setWidth 16 := by simpa [State.regAddr] using h
    have h2 := congrArg BitVec.toNat h1
    simp only [BitVec.toNat_setWidth] at h2
    apply BitVec.eq_of_toNat_eq
    have := q.isLt; have := r.isLt
    omega
  · intro h; rw [h]

/-- All a register write does to the registers. -/
theorem State.reg_setReg (s : State) (q r : RegNum) (v : Content Word) :
    (s.setReg r v).reg q = if q = r then v else s.reg q := by
  show (s.setReg r v).memRead (s.regAddr q) = _
  rw [State.memRead_setReg]
  simp only [State.regAddr_inj]
  rfl

@[simp] theorem State.reg_setReg_self (s : State) (r : RegNum) (v : Content Word) :
    (s.setReg r v).reg r = v := by
  simp [State.reg_setReg]

/-- A write to memory keeps the canonical form. -/
theorem State.memWrite_wf (s : State) (a : Word) (v : Content Word) (h : s.mem.wf = true) :
    (s.memWrite a v).mem.wf = true :=
  Memory.wf_write v a.isLt h

/-- A register write keeps the canonical form. -/
theorem State.setReg_wf (s : State) (r : RegNum) (v : Content Word) (h : s.mem.wf = true) :
    (s.setReg r v).mem.wf = true :=
  State.memWrite_wf s _ v h

/-- Placing an instruction word keeps the canonical form. -/
theorem Memory.insert_wf {m : Memory} (a : Word) (v : Word) (h : m.wf = true) :
    (m.insert a.toNat v).wf = true :=
  Memory.wf_write (.defined v) a.isLt h

/-- The memory after reset is in canonical form. -/
theorem State.reset_mem_wf : State.reset.mem.wf = true := rfl

end Sys2Proof.Machine
end

