-- ==== Sys2Proof/Laws/Ops.lean ====
section
/-! SUPPORT. What the shared operations can do, said once: how a restriction that holds or breaks decides the
outcome, what an operand is, and how UNDEFINED passes through. -/

namespace Sys2Proof.Machine

/-! ## Outcomes -/

@[simp] theorem withOperand_ok {α : Type} (a : α) (k : α → Result) : withOperand (.ok a) k = k a := rfl

@[simp] theorem withOperand_error {α : Type} (f : Fault) (k : α → Result) :
    withOperand (.error f) k = .fault f := rfl

/-- It goes on exactly where the restriction holds. -/
theorem withOperand_eq_next {α : Type} {r : Except Fault α} {k : α → Result} {t : State} :
    withOperand r k = .next t ↔ ∃ a, r = .ok a ∧ k a = .next t := by
  cases r <;> simp

/-- It faults where the restriction breaks, or where what follows does. -/
theorem withOperand_eq_fault {α : Type} {r : Except Fault α} {k : α → Result} {f : Fault} :
    withOperand r k = .fault f ↔ r = .error f ∨ ∃ a, r = .ok a ∧ k a = .fault f := by
  cases r <;> simp

/-- It refuses only where what follows does. -/
theorem withOperand_eq_refused {α : Type} {r : Except Fault α} {k : α → Result} {e : Refusal} :
    withOperand r k = .refused e ↔ ∃ a, r = .ok a ∧ k a = .refused e := by
  cases r <;> simp

/-! ## UNDEFINED -/

@[simp] theorem Content.map_defined {α β : Type} (f : α → β) (x : α) :
    (Content.defined x).map f = .defined (f x) := rfl
@[simp] theorem Content.map_undefined {α β : Type} (f : α → β) :
    (Content.undefined : Content α).map f = .undefined := rfl
@[simp] theorem Content.map₂_defined {α β γ : Type} (f : α → β → γ) (x : α) (y : β) :
    Content.map₂ f (.defined x) (.defined y) = .defined (f x y) := rfl
@[simp] theorem Content.map₂_undefined_left {α β γ : Type} (f : α → β → γ) (b : Content β) :
    Content.map₂ f .undefined b = .undefined := by cases b <;> rfl
@[simp] theorem Content.map₂_undefined_right {α β γ : Type} (f : α → β → γ) (a : Content α) :
    Content.map₂ f a .undefined = .undefined := by cases a <;> rfl
@[simp] theorem Content.map₃_defined {α β γ δ : Type} (f : α → β → γ → δ) (x : α) (y : β) (z : γ) :
    Content.map₃ f (.defined x) (.defined y) (.defined z) = .defined (f x y z) := rfl
@[simp] theorem Content.map₃_undefined_left {α β γ δ : Type} (f : α → β → γ → δ) (b : Content β)
    (c : Content γ) : Content.map₃ f .undefined b c = .undefined := by cases b <;> cases c <;> rfl
@[simp] theorem Content.map₃_undefined_mid {α β γ δ : Type} (f : α → β → γ → δ) (a : Content α)
    (c : Content γ) : Content.map₃ f a .undefined c = .undefined := by cases a <;> cases c <;> rfl
@[simp] theorem Content.map₃_undefined_right {α β γ δ : Type} (f : α → β → γ → δ) (a : Content α)
    (b : Content β) : Content.map₃ f a b .undefined = .undefined := by cases a <;> cases b <;> rfl
@[simp] theorem Content.map_map {α β γ : Type} (f : α → β) (g : β → γ) (c : Content α) :
    (c.map f).map g = c.map fun x => g (f x) := by cases c <;> rfl
@[simp] theorem Content.map_map₂ {α β γ δ : Type} (g : γ → δ) (f : α → β → γ) (a : Content α)
    (b : Content β) : (Content.map₂ f a b).map g = Content.map₂ (fun x y => g (f x y)) a b := by
  cases a <;> cases b <;> rfl
@[simp] theorem Content.map_map₃ {α β γ δ ε : Type} (g : δ → ε) (f : α → β → γ → δ) (a : Content α)
    (b : Content β) (c : Content γ) :
    (Content.map₃ f a b c).map g = Content.map₃ (fun x y z => g (f x y z)) a b c := by
  cases a <;> cases b <;> cases c <;> rfl

@[simp] theorem State.resolve_defined (s : State) (site : DrawSite) (v : Word) :
    s.resolve site (.defined v) = v := rfl
@[simp] theorem State.resolveBit_defined (s : State) (b : Bool) : s.resolveBit (.defined b) = b := rfl
@[simp] theorem State.memReadAt_defined (s : State) (a : Word) : s.memReadAt (.defined a) = s.memRead a := rfl
@[simp] theorem State.memReadAt_undefined (s : State) : s.memReadAt .undefined = .undefined := rfl

@[simp] theorem State.nextPc_defined {s : State} {p : Word} (h : s.pc = .defined p) : s.nextPc = .defined (p + 1) := by
  rw [State.nextPc, h]; rfl
@[simp] theorem State.fetchAddress_defined {s : State} {p : Word} (h : s.pc = .defined p) : s.fetchAddress = p := by
  rw [State.fetchAddress, h]; rfl

/-! ## Operands -/

/-- `{ext13, low}` as a number (R86). -/
theorem State.longOperand_toNat (e : BitVec 13) (low : BitVec 3) :
    (e ++ low : BitVec (13 + 3)).toNat = 8 * e.toNat + low.toNat := by
  rw [BitVec.toNat_append, ← Nat.shiftLeft_add_eq_or_of_lt low.isLt]
  simp [Nat.shiftLeft_eq]
  omega

/-- Its low three bits are the instruction's own (R86). -/
theorem State.longOperand_low (e : BitVec 13) (low : BitVec 3) :
    BitVec.extractLsb' 0 3 (e ++ low : BitVec (13 + 3)) = low :=
  BitVec.extractLsb'_append_eq_right

/-- All the operand of an imm5 or off5 field can be (R86, R87). -/
theorem State.operand5_cases (s : State) (f : BitVec 5) :
    (s.hasExt13 = false ∧ s.operand5 f = .ok (.defined (f.signExtend 16))) ∨
    (s.hasExt13 = true ∧ f.toNat < 8 ∧ s.operand5 f = .ok (s.longOperand (f.extractLsb' 0 3))) ∨
    (s.hasExt13 = true ∧ 8 ≤ f.toNat ∧ s.operand5 f = .error .longFormHighBits) := by
  unfold State.operand5
  cases s.hasExt13 with
  | false => simp
  | true =>
    have : f.extractLsb' 3 2 = 0#2 ↔ f.toNat < 8 := by revert f; decide
    by_cases h : f.toNat < 8
    · simp [this.2 h, h]
    · have h' : ¬ f.extractLsb' 3 2 = 0#2 := fun e => h (this.1 e)
      simp [h', h]; omega

/-- All the operand of an imm8 or off8 field can be (R86, R87). -/
theorem State.operand8_cases (s : State) (f : BitVec 8) :
    (s.hasExt13 = false ∧ s.operand8 f = .ok (.defined (f.signExtend 16))) ∨
    (s.hasExt13 = true ∧ f.toNat < 8 ∧ s.operand8 f = .ok (s.longOperand (f.extractLsb' 0 3))) ∨
    (s.hasExt13 = true ∧ 8 ≤ f.toNat ∧ s.operand8 f = .error .longFormHighBits) := by
  unfold State.operand8
  cases s.hasExt13 with
  | false => simp
  | true =>
    have : f.extractLsb' 3 5 = 0#5 ↔ f.toNat < 8 := by revert f; decide
    by_cases h : f.toNat < 8
    · simp [this.2 h, h]
    · have h' : ¬ f.extractLsb' 3 5 = 0#5 := fun e => h (this.1 e)
      simp [h', h]; omega

/-- All the operand of an arithmetic or logical immediate can be (R110). -/
theorem State.aluOperand_cases (s : State) (imm3 : BitVec 3) :
    (s.hasExt13 = true ∧ s.aluOperand imm3 = .ok (s.longOperand imm3)) ∨
    (s.hasExt13 = false ∧ ∃ v, immAl imm3 = some v ∧ s.aluOperand imm3 = .ok (.defined v)) ∨
    (s.hasExt13 = false ∧ immAl imm3 = none ∧ s.aluOperand imm3 = .error .immAl3Undefined) := by
  unfold State.aluOperand
  cases s.hasExt13 with
  | true => simp
  | false => cases immAl imm3 <;> simp [tableOperand]

/-- An amount is taken exactly when it is a defined value of 0 to 15 (R220). -/
theorem shiftAmount_eq_ok {c : Content Word} {n : Nat} :
    shiftAmount c = .ok n ↔ ∃ v : Word, c = .defined v ∧ v.toNat ≤ 15 ∧ v.toNat = n := by
  cases c with
  | undefined => simp [shiftAmount]
  | defined v =>
    by_cases h : v.toNat ≤ 15 <;> simp [shiftAmount, h]

/-- Any other amount is the one fault of R220. -/
theorem shiftAmount_eq_error {c : Content Word} {f : Fault} :
    shiftAmount c = .error f ↔
      f = .shiftAmountAbove15 ∧ ∀ v : Word, c = .defined v → ¬ v.toNat ≤ 15 := by
  cases c with
  | undefined => simp [shiftAmount, eq_comm]
  | defined v =>
    by_cases h : v.toNat ≤ 15 <;> simp [shiftAmount, h, eq_comm]
    omega

theorem extract_low3_eq_zero (v : Word) : v.extractLsb' 0 3 = 0#3 ↔ v.toNat % 8 = 0 := by
  rw [← BitVec.toNat_inj]
  simp [BitVec.extractLsb'_toNat]

/-- A value goes into W exactly when it is a defined multiple of 8 (R140). -/
theorem windowValue_eq_ok {c : Content Word} {w : Word} :
    windowValue c = .ok w ↔ c = .defined w ∧ w.toNat % 8 = 0 := by
  cases c with
  | undefined => simp [windowValue]
  | defined v =>
    simp only [windowValue, extract_low3_eq_zero, Content.defined.injEq]
    split <;> simp <;> grind

/-- Any other value is the one fault of R140. -/
theorem windowValue_eq_error {c : Content Word} {f : Fault} :
    windowValue c = .error f ↔
      f = .windowNotMultipleOf8 ∧ ∀ v : Word, c = .defined v → ¬ v.toNat % 8 = 0 := by
  cases c with
  | undefined => simp [windowValue, eq_comm]
  | defined v =>
    simp only [windowValue, extract_low3_eq_zero, Content.defined.injEq]
    split <;> simp_all [eq_comm]

end Sys2Proof.Machine
end

