-- ==== Sys2Proof/Laws/Values.lean ====
section
/-! SUPPORT. The operands, the ALU and the shifts in exact arithmetic: each shared operation equals the value the
rules give it, in the terms of Sys2Proof/Safety.lean. -/

namespace Sys2Proof.Machine

open Sys2Proof.Claims

/-! ## Operands -/

theorem State.longOperand_eq (s : State) (low : BitVec 3) : s.longOperand low = longValue s low := by
  unfold State.longOperand longValue
  congr 1
  funext e
  apply BitVec.eq_of_toNat_eq
  rw [State.longOperand_toNat]
  have := e.isLt; have := low.isLt
  simp; omega

theorem signExtend_eq_ofInt {n : Nat} (f : BitVec n) : f.signExtend 16 = BitVec.ofInt 16 f.toInt := rfl

/-- R86, R87: the operand of imm5 and off5 exactly where the field is allowed. -/
theorem State.operand5_ok {s : State} {f : BitVec 5} (h : Field5Ok s f) :
    s.operand5 f = .ok (value5 s f) := by
  rcases s.operand5_cases f with ⟨he, ho⟩ | ⟨he, _, ho⟩ | ⟨he, hf, _⟩
  · rw [ho]; simp [value5, he, signExtend_eq_ofInt]
  · rw [ho]; simp [value5, he, State.longOperand_eq]
  · exact absurd (h he) (by omega)

theorem State.operand5_bad {s : State} {f : BitVec 5} (h : ¬ Field5Ok s f) :
    s.operand5 f = .error .longFormHighBits := by
  rcases s.operand5_cases f with ⟨he, _⟩ | ⟨he, hf, _⟩ | ⟨_, _, ho⟩
  · exact absurd (fun e => by simp [he] at e) h
  · exact absurd (fun _ => hf) h
  · exact ho

/-- R86, R87: the operand of imm8 and off8 exactly where the field is allowed. -/
theorem State.operand8_ok {s : State} {f : BitVec 8} (h : Field8Ok s f) :
    s.operand8 f = .ok (value8 s f) := by
  rcases s.operand8_cases f with ⟨he, ho⟩ | ⟨he, _, ho⟩ | ⟨he, hf, _⟩
  · rw [ho]; simp [value8, he, signExtend_eq_ofInt]
  · rw [ho]; simp [value8, he, State.longOperand_eq]
  · exact absurd (h he) (by omega)

theorem State.operand8_bad {s : State} {f : BitVec 8} (h : ¬ Field8Ok s f) :
    s.operand8 f = .error .longFormHighBits := by
  rcases s.operand8_cases f with ⟨he, _⟩ | ⟨he, hf, _⟩ | ⟨_, _, ho⟩
  · exact absurd (fun e => by simp [he] at e) h
  · exact absurd (fun _ => hf) h
  · exact ho

/-- R9: every row of the table but "TBD". -/
theorem immAl_eq {imm3 : BitVec 3} (h : imm3.toNat ≠ 3) : immAl imm3 = some (aluTable imm3) := by
  have : ∀ n : Fin 8, n.val ≠ 3 → immAl (BitVec.ofFin n) = some (aluTable (BitVec.ofFin n)) := by
    intro n hn
    match n with
    | 0 | 1 | 2 | 4 | 5 | 6 | 7 => rfl
    | 3 => exact absurd rfl hn
  exact this imm3.toFin h

/-- R110: the second operand of an arithmetic or logical immediate. -/
theorem State.aluOperand_ok {s : State} {imm3 : BitVec 3} (h : AluFieldOk s imm3) :
    s.aluOperand imm3 = .ok (aluValue s imm3) := by
  unfold State.aluOperand aluValue
  cases he : s.hasExt13 with
  | true => simp [State.longOperand_eq]
  | false =>
    have h3 : imm3.toNat ≠ 3 := h.resolve_left (by simp [he])
    simp [immAl_eq h3, tableOperand]

/-- R220: the amount of the immediate forms before its range is checked. -/
theorem State.shiftOperand_eq (s : State) (imm3 : BitVec 3) : s.shiftOperand imm3 = shiftValue s imm3 := by
  unfold State.shiftOperand shiftValue
  cases s.hasExt13 with
  | true => simp [State.longOperand_eq]
  | false => simp only [Bool.false_eq_true, if_false]; revert imm3; decide

theorem shiftAmount_ok {c : Content Word} {n : Word} (h : c = .defined n) (hn : n.toNat ≤ 15) :
    shiftAmount c = .ok n.toNat := shiftAmount_eq_ok.2 ⟨n, h, hn, rfl⟩

theorem shiftAmount_bad {c : Content Word} (h : ¬ Surely c (· ≤ 15)) :
    shiftAmount c = .error .shiftAmountAbove15 :=
  shiftAmount_eq_error.2 ⟨rfl, fun v hv hn => h ⟨v, hv, hn⟩⟩

theorem windowValue_ok {c : Content Word} {v : Word} (h : c = .defined v) (hv : v.toNat % 8 = 0) :
    windowValue c = .ok v := windowValue_eq_ok.2 ⟨h, hv⟩

theorem windowValue_bad {c : Content Word} (h : ¬ Surely c (· % 8 = 0)) :
    windowValue c = .error .windowNotMultipleOf8 :=
  windowValue_eq_error.2 ⟨rfl, fun v hv hn => h ⟨v, hv, hn⟩⟩

theorem map₂_add_eq (a b : Content Word) : Content.map₂ (· + ·) a b = addWords a b := by
  unfold addWords
  congr 1

theorem State.memReadAt_eq (s : State) (a : Content Word) : s.memReadAt a = wordAt s a := by
  cases a <;> rfl

/-! ## The ALU -/

theorem sum17_toNat (a b : Word) (c : Bool) : (sum17 a b c).toNat = a.toNat + b.toNat + c.toNat := by
  have := a.isLt; have := b.isLt
  cases c <;> simp [sum17] <;> omega

theorem signFlag_eq (r : Word) : signFlag r = decide (32768 ≤ r.toNat) := by
  have h : r.getLsbD 15 = r.msb := by simp [BitVec.msb_eq_getLsbD_last]
  rw [signFlag, h, BitVec.msb_eq_decide]

theorem zeroFlag_eq (r : Word) : zeroFlag r = decide (r.toNat = 0) := by
  rw [zeroFlag, Bool.eq_iff_iff]
  simp [← BitVec.toNat_inj]

theorem toInt_eq_if (r : Word) :
    r.toInt = if 32768 ≤ r.toNat then (r.toNat : Int) - 65536 else r.toNat := by
  rw [BitVec.toInt_eq_toNat_cond]
  split <;> split <;> omega

theorem carry17 (x : BitVec 17) : x.getLsbD 16 = decide (65536 ≤ x.toNat) := by
  have h : x.getLsbD 16 = x.msb := by simp [BitVec.msb_eq_getLsbD_last]
  rw [h, BitVec.msb_eq_decide]

/-- R111: all an addition yields, exactly. -/
theorem addOut_eq (a b : Word) (c : Bool) :
    addOut a b c =
      { res := BitVec.ofNat 16 (a.toNat + b.toNat + c.toNat)
        z := decide ((a.toNat + b.toNat + c.toNat) % 65536 = 0)
        s := decide (32768 ≤ (a.toNat + b.toNat + c.toNat) % 65536)
        c := decide (65536 ≤ a.toNat + b.toNat + c.toNat)
        v := decide (a.toInt + b.toInt + (c.toNat : Int) < -32768 ∨ 32767 < a.toInt + b.toInt + (c.toNat : Int)) } := by
  have hs := sum17_toNat a b c
  have hr : (sum17 a b c).setWidth 16 = BitVec.ofNat 16 (a.toNat + b.toNat + c.toNat) := by
    apply BitVec.eq_of_toNat_eq; simp [hs]
  have hsg : ∀ r : Word, r.getLsbD 15 = decide (32768 ≤ r.toNat) := signFlag_eq
  simp only [addOut, hr, zeroFlag_eq, signFlag_eq, hsg, carry17, hs, AluOut.mk.injEq, true_and]
  refine ⟨by simp, by simp, ?_⟩
  have ha := a.isLt; have hb := b.isLt; have hc := Bool.toNat_le c
  rw [toInt_eq_if, toInt_eq_if, BitVec.toNat_ofNat, Bool.eq_iff_iff]
  simp only [Bool.and_eq_true, beq_iff_eq, bne_iff_ne, ne_eq, decide_eq_decide, decide_eq_true_eq]
  split <;> split <;> omega

/-- R111: all a subtraction yields, exactly. -/
theorem subOut_eq (a b : Word) (c : Bool) :
    subOut a b c =
      { res := BitVec.ofNat 16 (65536 + a.toNat - b.toNat - (!c).toNat)
        z := decide ((65536 + a.toNat - b.toNat - (!c).toNat) % 65536 = 0)
        s := decide (32768 ≤ (65536 + a.toNat - b.toNat - (!c).toNat) % 65536)
        c := decide (b.toNat + (!c).toNat ≤ a.toNat)
        v := decide (a.toInt - b.toInt - ((!c).toNat : Int) < -32768 ∨
          32767 < a.toInt - b.toInt - ((!c).toNat : Int)) } := by
  have ha := a.isLt; have hb := b.isLt
  have hn : (~~~b).toNat = 65535 - b.toNat := by simp [BitVec.toNat_not]
  have hk : (!c).toNat + c.toNat = 1 := by cases c <;> rfl
  have hs := sum17_toNat a (~~~b) c
  rw [hn] at hs
  have hr : (sum17 a (~~~b) c).setWidth 16 = BitVec.ofNat 16 (65536 + a.toNat - b.toNat - (!c).toNat) := by
    apply BitVec.eq_of_toNat_eq; simp only [BitVec.toNat_setWidth, hs, BitVec.toNat_ofNat]; congr 1; omega
  have hsg : ∀ r : Word, r.getLsbD 15 = decide (32768 ≤ r.toNat) := signFlag_eq
  simp only [subOut, hr, zeroFlag_eq, signFlag_eq, hsg, carry17, hs, AluOut.mk.injEq, true_and]
  refine ⟨by simp, by simp, by rw [decide_eq_decide]; omega, ?_⟩
  rw [toInt_eq_if, toInt_eq_if, BitVec.toNat_ofNat, Bool.eq_iff_iff]
  simp only [Bool.and_eq_true, beq_iff_eq, bne_iff_ne, ne_eq, decide_eq_decide, decide_eq_true_eq,
    ← decide_not]
  split <;> split <;> omega

/-! ## Shifts and rotates -/

theorem shiftLeft_eq (x : Word) (n : Nat) : shiftLeft x n = sllWord n x := by
  apply BitVec.eq_of_toNat_eq
  simp [shiftLeft, sllWord, BitVec.toNat_shiftLeft, Nat.shiftLeft_eq]

theorem shiftRight_eq (x : Word) (n : Nat) : shiftRight x n = srlWord n x := by
  apply BitVec.eq_of_toNat_eq
  have h := Nat.lt_of_le_of_lt (Nat.div_le_self x.toNat (2 ^ n)) x.isLt
  rw [shiftRight, srlWord, BitVec.toNat_ushiftRight, Nat.shiftRight_eq_div_pow, BitVec.toNat_ofNat,
    Nat.mod_eq_of_lt h]

theorem pow_split {n : Nat} (hn : n ≤ 15) : 2 ^ (16 - n) * 2 ^ n = 65536 := by
  rw [← Nat.pow_add, Nat.sub_add_cancel (by omega)]

theorem rotateLeft_eq {n : Nat} (x : Word) (hn : n ≤ 15) : rotateLeft x n = rolWord n x := by
  have hx := x.isLt
  unfold rotateLeft rolWord
  split
  · next h =>
    subst h
    apply BitVec.eq_of_toNat_eq
    rw [BitVec.toNat_or, BitVec.toNat_ushiftRight, BitVec.toNat_shiftLeft, Nat.shiftRight_eq_div_pow,
      Nat.div_eq_of_lt hx]
    simpa using hx
  · next h =>
    apply BitVec.eq_of_toNat_eq
    have h16 := pow_split hn
    have hpos : 0 < 2 ^ (16 - n) := Nat.pow_pos (by omega)
    have hlt : x.toNat / 2 ^ (16 - n) < 2 ^ n := Nat.div_lt_of_lt_mul (by rw [h16]; exact hx)
    have hm : x.toNat * 2 ^ n % 65536 = (x.toNat % 2 ^ (16 - n)) <<< n := by
      rw [← h16, Nat.mul_mod_mul_right, Nat.shiftLeft_eq]
    have hb : (x.toNat % 2 ^ (16 - n)) * 2 ^ n + x.toNat / 2 ^ (16 - n) < 65536 := by
      have h1 : (x.toNat % 2 ^ (16 - n) + 1) * 2 ^ n ≤ 2 ^ (16 - n) * 2 ^ n :=
        Nat.mul_le_mul_right _ (Nat.mod_lt _ hpos)
      rw [Nat.add_mul, Nat.one_mul, h16] at h1
      omega
    rw [BitVec.toNat_or, BitVec.toNat_shiftLeft, BitVec.toNat_ushiftRight, BitVec.toNat_ofNat,
      Nat.shiftRight_eq_div_pow, Nat.shiftLeft_eq, show 2 ^ 16 = 65536 from rfl, hm,
      ← Nat.shiftLeft_add_eq_or_of_lt hlt, Nat.shiftLeft_eq, Nat.mod_eq_of_lt hb]

theorem shiftRightArith_eq {n : Nat} (x : Word) (hn : n ≤ 15) : shiftRightArith x n = sraWord n x := by
  have hx := x.isLt
  have h16 := pow_split hn
  have hpos : 0 < 2 ^ n := Nat.pow_pos (by omega)
  have hle : 2 ^ (16 - n) ≤ 65536 := by rw [← h16]; exact Nat.le_mul_of_pos_right _ hpos
  have hd := Nat.div_le_self x.toNat (2 ^ n)
  unfold shiftRightArith sraWord
  rw [BitVec.sshiftRight_eq]
  apply BitVec.eq_of_toNat_eq
  rw [BitVec.toNat_ofInt, BitVec.toNat_ofNat, toInt_eq_if, Int.shiftRight_eq_div_pow]
  split
  · have hi : (x.toNat : Int) - 65536 = x.toNat + (-((2 ^ (16 - n) : Nat) : Int)) * ((2 ^ n : Nat) : Int) := by
      rw [Int.neg_mul, ← Int.natCast_mul, h16]; omega
    rw [hi, Int.add_mul_ediv_right _ _ (by omega), ← Int.natCast_ediv]
    omega
  · rw [← Int.natCast_ediv]
    omega

end Sys2Proof.Machine
end

