-- ==== Sys2Proof/Laws/Frames.lean ====
section
/-! SUPPORT. The ends of instructions, each with all it writes and all it leaves: the lemmas to cite instead of
unfolding a meaning. -/

namespace Sys2Proof.Machine

open Sys2Proof.Claims

/-- `pc + 1` as the statements write it. -/
theorem State.nextPc_eq (s : State) : s.nextPc = pcPlus s 1 := by
  refine congrArg (fun f => s.pc.map f) (funext fun p => BitVec.eq_of_toNat_eq ?_)
  simp

/-- The wrapping sum of two contents as the statements write it. -/
theorem Content.map₂_add (a b : Content Word) : Content.map₂ (· + ·) a b = addWords a b := by
  refine congrArg (fun f => Content.map₂ f a b) (funext fun x => funext fun y => BitVec.eq_of_toNat_eq ?_)
  simp

theorem State.regAddr_eq (s : State) (r : RegNum) : s.regAddr r = BitVec.ofNat 16 (s.w.toNat + r.toNat) := by
  apply BitVec.eq_of_toNat_eq
  have := r.isLt
  simp [State.regAddr]

/-- Every register after a register write. -/
theorem WritesRegister.reg {s t : State} {rd : RegNum} {v : Content Word} (h : WritesRegister s t rd v)
    (q : RegNum) : t.reg q = if q = rd then v else s.reg q := by
  split
  · next e => rw [e]; exact h.1
  · next e =>
    have hq : t.regAddr q = s.regAddr q := by unfold State.regAddr; rw [h.2.2.1]
    rw [State.reg, hq, h.2.1 _ fun e2 => e (s.regAddr_inj.1 e2)]; rfl

/-- A register write and the step to the next instruction: MOVI, MOVR and the loads. -/
theorem State.setReg_advance (s : State) (rd : RegNum) (v : Content Word) :
    WritesRegister s (s.setReg rd v).advance rd v := by
  refine ⟨by simp, fun b hb => ?_, rfl, rfl, rfl, rfl⟩
  simp [State.memRead_setReg, hb]

/-- All `finishArith` does but the flags. -/
theorem State.finishArith_frame (s : State) (rd : RegNum) (o : Content AluOut) :
    (s.finishArith rd o).pc = pcPlus s 1 ∧ WritesRegister s (s.finishArith rd o) rd (o.map AluOut.res) := by
  refine ⟨s.nextPc_eq, ?_, fun b hb => ?_, rfl, rfl, rfl, rfl⟩
  · simp [State.finishArith]
  · simp [State.finishArith, State.memRead_setReg, hb]

/-- All `finishLogic` does. -/
theorem State.finishLogic_frame (s : State) (rd : RegNum) (res : Content Word) :
    (s.finishLogic rd res).pc = pcPlus s 1 ∧ WritesRegister s (s.finishLogic rd res) rd res ∧
      LogicFlags (s.finishLogic rd res) res := by
  refine ⟨s.nextPc_eq, ⟨?_, fun b hb => ?_, rfl, rfl, rfl, rfl⟩, ?_, ?_, rfl, rfl⟩
  · simp [State.finishLogic]
  · simp [State.finishLogic, State.memRead_setReg, hb]
  · exact congrArg (fun f => res.map f) (funext zeroFlag_eq)
  · exact congrArg (fun f => res.map f) (funext signFlag_eq)

/-- The flags of an addition (R111). -/
theorem State.setArithFlags_add (s : State) (a b : Content Word) (c : Content Bool) :
    SumFlags (s.setArithFlags (Content.map₃ addOut a b c)) a b c := by
  simp [SumFlags, addOut_eq]

/-- The flags of a subtraction (R111). -/
theorem State.setArithFlags_sub (s : State) (a b : Content Word) (c : Content Bool) :
    DiffFlags (s.setArithFlags (Content.map₃ subOut a b c)) a b c := by
  simp [DiffFlags, subOut_eq]

/-- A fixed carry in is an operand that is defined. -/
theorem Content.map₂_eq_map₃ (f : Word → Word → Bool → AluOut) (a b : Content Word) (k : Bool) :
    Content.map₂ (f · · k) a b = Content.map₃ f a b (.defined k) := by
  cases a <;> cases b <;> rfl

/-- All `finishStore` does to memory, at whatever address it stores. -/
theorem State.finishStore_frame (s : State) (rs : RegNum) (addr : Content Word) :
    (s.finishStore rs addr).memRead (s.resolve .address addr) = s.reg rs ∧
      SameMemoryExcept s (s.finishStore rs addr) (s.resolve .address addr) := by
  refine ⟨?_, fun b hb => ?_⟩
  · simp [State.finishStore]
  · simp [State.finishStore, State.memRead_memWrite, hb]

/-- All `finishExtLoad` does to memory and the bus. -/
theorem State.finishExtLoad_frame (s : State) (rd : RegNum) (addr : Content Word) :
    (s.finishExtLoad rd addr).extTrace =
        s.extTrace ++ [.read (s.resolve .address addr) (s.extAnswer (s.resolve .address addr))] ∧
      (s.finishExtLoad rd addr).reg rd = addr.map s.extAnswer ∧
      SameMemoryExcept s (s.finishExtLoad rd addr) (s.regAddr rd) := by
  refine ⟨rfl, ?_, fun b hb => ?_⟩
  · simp [State.finishExtLoad]
  · simp [State.finishExtLoad, State.memRead_setReg, hb]

/-- All `exchangeWindow` does to memory. -/
theorem State.exchangeWindow_frame (s : State) (t : Word) (rd : RegNum) :
    (s.exchangeWindow t rd).reg rd = .defined s.w ∧
      SameMemoryExcept s (s.exchangeWindow t rd) (BitVec.ofNat 16 (t.toNat + rd.toNat)) := by
  refine ⟨by simp [State.exchangeWindow], fun b hb => ?_⟩
  have hb' : b ≠ (s.setWindow t).regAddr rd := by rw [State.regAddr_eq]; exact hb
  simp [State.exchangeWindow, State.memRead_setReg, hb']

/-- What the base of the PC-relative forms adds up to (R160, R152). -/
theorem State.pcRelative_eq (s : State) (off : Content Word) : s.pcRelative off = addWords (pcPlus s 1) off := by
  rw [State.pcRelative, Content.map₂_add, State.nextPc_eq]

/-- A jump to a PC-relative target goes to pc + 1 + off. -/
theorem State.jump_pcRelative (s : State) (off : Content Word) : JumpsTo s (s.jump (s.pcRelative off)) off :=
  s.pcRelative_eq off

/-- All a conditional jump does once its operand is there (R161). -/
theorem State.branch_cases (s : State) (cond : Content Bool) (off : Content Word) :
    (cond ≠ .defined false ∧ s.branch cond off = s.jump (s.pcRelative off)) ∨
      (cond ≠ .defined true ∧ s.branch cond off = s.advance) := by
  unfold State.branch
  cases cond with
  | defined b => cases b <;> simp
  | undefined => split <;> simp

/-- An instruction with an imm5 or off5 operand completes or stops as its long-form restriction says (R87). -/
theorem completesUnless5 {s : State} {f : BitVec 5} {k : Content Word → Result} {P : State → Prop}
    (h : Field5Ok s f → ∃ t, k (value5 s f) = .next t ∧ P t) :
    CompletesUnless (Field5Ok s f) (withOperand (s.operand5 f) k) .longFormHighBits P := by
  refine ⟨fun hf => ?_, fun hf => ?_⟩
  · rw [State.operand5_ok hf]; exact h hf
  · rw [State.operand5_bad hf]; rfl

/-- An instruction with an imm8 or off8 operand completes or stops as its long-form restriction says (R87). -/
theorem completesUnless8 {s : State} {f : BitVec 8} {k : Content Word → Result} {P : State → Prop}
    (h : Field8Ok s f → ∃ t, k (value8 s f) = .next t ∧ P t) :
    CompletesUnless (Field8Ok s f) (withOperand (s.operand8 f) k) .longFormHighBits P := by
  refine ⟨fun hf => ?_, fun hf => ?_⟩
  · rw [State.operand8_ok hf]; exact h hf
  · rw [State.operand8_bad hf]; rfl

end Sys2Proof.Machine
end

