-- ==== Sys2Proof/Laws/PerInstr.lean ====
section
/-! SUPPORT. Statements for all instructions, one lemma for each. -/

namespace Sys2Proof.Laws

/-- The mask and match of an instruction's row of spec/opcode_table.json. -/
def tableRow : Instr → Word × Word
  | .and _ _ _ => (0xF818, 0x0000)
  | .or _ _ _ => (0xF818, 0x0008)
  | .xor _ _ _ => (0xF818, 0x0010)
  | .cmp _ _ => (0xFF18, 0x0018)
  | .andi _ _ _ => (0xF818, 0x0800)
  | .ori _ _ _ => (0xF818, 0x0808)
  | .xori _ _ _ => (0xF818, 0x0810)
  | .cmpi _ _ => (0xFF18, 0x0818)
  | .add _ _ _ => (0xF818, 0x1000)
  | .adc _ _ _ => (0xF818, 0x1008)
  | .sub _ _ _ => (0xF818, 0x1010)
  | .sbb _ _ _ => (0xF818, 0x1018)
  | .addi _ _ _ => (0xF818, 0x1800)
  | .adci _ _ _ => (0xF818, 0x1808)
  | .subi _ _ _ => (0xF818, 0x1810)
  | .sbbi _ _ _ => (0xF818, 0x1818)
  | .sll _ _ _ => (0xF818, 0x2000)
  | .rol _ _ _ => (0xF818, 0x2008)
  | .srl _ _ _ => (0xF818, 0x2010)
  | .sra _ _ _ => (0xF818, 0x2018)
  | .slli _ _ _ => (0xF818, 0x2800)
  | .roli _ _ _ => (0xF818, 0x2808)
  | .srli _ _ _ => (0xF818, 0x2810)
  | .srai _ _ _ => (0xF818, 0x2818)
  | .ld _ _ _ => (0xF800, 0x4000)
  | .ldr _ _ _ => (0xF800, 0x4800)
  | .st _ _ _ => (0xF800, 0x5000)
  | .str _ _ _ => (0xF800, 0x5800)
  | .ldx _ _ _ => (0xF800, 0x6000)
  | .ldxa _ _ => (0xF800, 0x6800)
  | .stx _ _ _ => (0xF800, 0x7000)
  | .stxa _ _ => (0xF800, 0x7800)
  | .movi _ _ => (0xF800, 0x8000)
  | .movr _ _ => (0xF800, 0x8800)
  | .stw _ => (0xFFF8, 0xA000)
  | .xchw _ _ => (0xF8F8, 0xA020)
  | .adjw _ => (0xFFE0, 0xA040)
  | .ldw _ _ => (0xF8E0, 0xA060)
  | .jr _ _ => (0xF8E0, 0xA080)
  | .jral _ _ => (0xF8F8, 0xA0A0)
  | .jvt _ _ => (0xF8E0, 0xA0C0)
  | .jst _ _ => (0xF8E0, 0xA0E0)
  | .jal _ _ => (0xF800, 0xA800)
  | .jnz _ => (0xFF00, 0xB000)
  | .jne _ => (0xFF00, 0xB000)
  | .jns _ => (0xFF00, 0xB100)
  | .jnc _ => (0xFF00, 0xB200)
  | .jult _ => (0xFF00, 0xB200)
  | .jno _ => (0xFF00, 0xB300)
  | .jugt _ => (0xFF00, 0xB400)
  | .jsge _ => (0xFF00, 0xB500)
  | .jsgt _ => (0xFF00, 0xB600)
  | .jn _ => (0xFF00, 0xB700)
  | .jz _ => (0xFF00, 0xB800)
  | .je _ => (0xFF00, 0xB800)
  | .js _ => (0xFF00, 0xB900)
  | .jc _ => (0xFF00, 0xBA00)
  | .juge _ => (0xFF00, 0xBA00)
  | .jo _ => (0xFF00, 0xBB00)
  | .jule _ => (0xFF00, 0xBC00)
  | .jslt _ => (0xFF00, 0xBD00)
  | .jsle _ => (0xFF00, 0xBE00)
  | .j _ => (0xFF00, 0xBF00)
  | .exti _ => (0xE000, 0xC000)

/-- The word the encoder writes matches the instruction's row of the opcode table. -/
def EncodingMatchesTable.Statement (i : Instr) : Prop := encode i &&& (tableRow i).1 = (tableRow i).2

theorem EncodingMatchesTable.and (rd ra rb : RegNum) : EncodingMatchesTable.Statement (.and rd ra rb) :=
  (formatR_and _ 0b11111#5 _ 0b000#3 _ 0b000#3 _ 0b11#2 _ 0b000#3).trans (by simp; rfl)

theorem EncodingMatchesTable.or (rd ra rb : RegNum) : EncodingMatchesTable.Statement (.or rd ra rb) :=
  (formatR_and _ 0b11111#5 _ 0b000#3 _ 0b000#3 _ 0b11#2 _ 0b000#3).trans (by simp; rfl)

theorem EncodingMatchesTable.xor (rd ra rb : RegNum) : EncodingMatchesTable.Statement (.xor rd ra rb) :=
  (formatR_and _ 0b11111#5 _ 0b000#3 _ 0b000#3 _ 0b11#2 _ 0b000#3).trans (by simp; rfl)

theorem EncodingMatchesTable.cmp (ra rb : RegNum) : EncodingMatchesTable.Statement (.cmp ra rb) :=
  (formatR_and _ 0b11111#5 _ 0b111#3 _ 0b000#3 _ 0b11#2 _ 0b000#3).trans (by simp; rfl)

theorem EncodingMatchesTable.andi (rd ra : RegNum) (imm3 : BitVec 3) : EncodingMatchesTable.Statement (.andi rd ra imm3) :=
  (formatR_and _ 0b11111#5 _ 0b000#3 _ 0b000#3 _ 0b11#2 _ 0b000#3).trans (by simp; rfl)

theorem EncodingMatchesTable.ori (rd ra : RegNum) (imm3 : BitVec 3) : EncodingMatchesTable.Statement (.ori rd ra imm3) :=
  (formatR_and _ 0b11111#5 _ 0b000#3 _ 0b000#3 _ 0b11#2 _ 0b000#3).trans (by simp; rfl)

theorem EncodingMatchesTable.xori (rd ra : RegNum) (imm3 : BitVec 3) : EncodingMatchesTable.Statement (.xori rd ra imm3) :=
  (formatR_and _ 0b11111#5 _ 0b000#3 _ 0b000#3 _ 0b11#2 _ 0b000#3).trans (by simp; rfl)

theorem EncodingMatchesTable.cmpi (ra : RegNum) (imm3 : BitVec 3) : EncodingMatchesTable.Statement (.cmpi ra imm3) :=
  (formatR_and _ 0b11111#5 _ 0b111#3 _ 0b000#3 _ 0b11#2 _ 0b000#3).trans (by simp; rfl)

theorem EncodingMatchesTable.add (rd ra rb : RegNum) : EncodingMatchesTable.Statement (.add rd ra rb) :=
  (formatR_and _ 0b11111#5 _ 0b000#3 _ 0b000#3 _ 0b11#2 _ 0b000#3).trans (by simp; rfl)

theorem EncodingMatchesTable.adc (rd ra rb : RegNum) : EncodingMatchesTable.Statement (.adc rd ra rb) :=
  (formatR_and _ 0b11111#5 _ 0b000#3 _ 0b000#3 _ 0b11#2 _ 0b000#3).trans (by simp; rfl)

theorem EncodingMatchesTable.sub (rd ra rb : RegNum) : EncodingMatchesTable.Statement (.sub rd ra rb) :=
  (formatR_and _ 0b11111#5 _ 0b000#3 _ 0b000#3 _ 0b11#2 _ 0b000#3).trans (by simp; rfl)

theorem EncodingMatchesTable.sbb (rd ra rb : RegNum) : EncodingMatchesTable.Statement (.sbb rd ra rb) :=
  (formatR_and _ 0b11111#5 _ 0b000#3 _ 0b000#3 _ 0b11#2 _ 0b000#3).trans (by simp; rfl)

theorem EncodingMatchesTable.addi (rd ra : RegNum) (imm3 : BitVec 3) : EncodingMatchesTable.Statement (.addi rd ra imm3) :=
  (formatR_and _ 0b11111#5 _ 0b000#3 _ 0b000#3 _ 0b11#2 _ 0b000#3).trans (by simp; rfl)

theorem EncodingMatchesTable.adci (rd ra : RegNum) (imm3 : BitVec 3) : EncodingMatchesTable.Statement (.adci rd ra imm3) :=
  (formatR_and _ 0b11111#5 _ 0b000#3 _ 0b000#3 _ 0b11#2 _ 0b000#3).trans (by simp; rfl)

theorem EncodingMatchesTable.subi (rd ra : RegNum) (imm3 : BitVec 3) : EncodingMatchesTable.Statement (.subi rd ra imm3) :=
  (formatR_and _ 0b11111#5 _ 0b000#3 _ 0b000#3 _ 0b11#2 _ 0b000#3).trans (by simp; rfl)

theorem EncodingMatchesTable.sbbi (rd ra : RegNum) (imm3 : BitVec 3) : EncodingMatchesTable.Statement (.sbbi rd ra imm3) :=
  (formatR_and _ 0b11111#5 _ 0b000#3 _ 0b000#3 _ 0b11#2 _ 0b000#3).trans (by simp; rfl)

theorem EncodingMatchesTable.sll (rd ra rb : RegNum) : EncodingMatchesTable.Statement (.sll rd ra rb) :=
  (formatR_and _ 0b11111#5 _ 0b000#3 _ 0b000#3 _ 0b11#2 _ 0b000#3).trans (by simp; rfl)

theorem EncodingMatchesTable.rol (rd ra rb : RegNum) : EncodingMatchesTable.Statement (.rol rd ra rb) :=
  (formatR_and _ 0b11111#5 _ 0b000#3 _ 0b000#3 _ 0b11#2 _ 0b000#3).trans (by simp; rfl)

theorem EncodingMatchesTable.srl (rd ra rb : RegNum) : EncodingMatchesTable.Statement (.srl rd ra rb) :=
  (formatR_and _ 0b11111#5 _ 0b000#3 _ 0b000#3 _ 0b11#2 _ 0b000#3).trans (by simp; rfl)

theorem EncodingMatchesTable.sra (rd ra rb : RegNum) : EncodingMatchesTable.Statement (.sra rd ra rb) :=
  (formatR_and _ 0b11111#5 _ 0b000#3 _ 0b000#3 _ 0b11#2 _ 0b000#3).trans (by simp; rfl)

theorem EncodingMatchesTable.slli (rd ra : RegNum) (imm3 : BitVec 3) : EncodingMatchesTable.Statement (.slli rd ra imm3) :=
  (formatR_and _ 0b11111#5 _ 0b000#3 _ 0b000#3 _ 0b11#2 _ 0b000#3).trans (by simp; rfl)

theorem EncodingMatchesTable.roli (rd ra : RegNum) (imm3 : BitVec 3) : EncodingMatchesTable.Statement (.roli rd ra imm3) :=
  (formatR_and _ 0b11111#5 _ 0b000#3 _ 0b000#3 _ 0b11#2 _ 0b000#3).trans (by simp; rfl)

theorem EncodingMatchesTable.srli (rd ra : RegNum) (imm3 : BitVec 3) : EncodingMatchesTable.Statement (.srli rd ra imm3) :=
  (formatR_and _ 0b11111#5 _ 0b000#3 _ 0b000#3 _ 0b11#2 _ 0b000#3).trans (by simp; rfl)

theorem EncodingMatchesTable.srai (rd ra : RegNum) (imm3 : BitVec 3) : EncodingMatchesTable.Statement (.srai rd ra imm3) :=
  (formatR_and _ 0b11111#5 _ 0b000#3 _ 0b000#3 _ 0b11#2 _ 0b000#3).trans (by simp; rfl)

theorem EncodingMatchesTable.ld (rd ra : RegNum) (off5 : BitVec 5) : EncodingMatchesTable.Statement (.ld rd ra off5) :=
  (formatM_and _ 0b11111#5 _ 0b000#3 _ 0b000#3 _ 0b00000#5).trans (by simp; rfl)

theorem EncodingMatchesTable.ldr (rd ra : RegNum) (off5 : BitVec 5) : EncodingMatchesTable.Statement (.ldr rd ra off5) :=
  (formatM_and _ 0b11111#5 _ 0b000#3 _ 0b000#3 _ 0b00000#5).trans (by simp; rfl)

theorem EncodingMatchesTable.st (rs ra : RegNum) (off5 : BitVec 5) : EncodingMatchesTable.Statement (.st rs ra off5) :=
  (formatM_and _ 0b11111#5 _ 0b000#3 _ 0b000#3 _ 0b00000#5).trans (by simp; rfl)

theorem EncodingMatchesTable.str (rs ra : RegNum) (off5 : BitVec 5) : EncodingMatchesTable.Statement (.str rs ra off5) :=
  (formatM_and _ 0b11111#5 _ 0b000#3 _ 0b000#3 _ 0b00000#5).trans (by simp; rfl)

theorem EncodingMatchesTable.ldx (rd ra : RegNum) (off5 : BitVec 5) : EncodingMatchesTable.Statement (.ldx rd ra off5) :=
  (formatM_and _ 0b11111#5 _ 0b000#3 _ 0b000#3 _ 0b00000#5).trans (by simp; rfl)

theorem EncodingMatchesTable.ldxa (rd : RegNum) (off8 : BitVec 8) : EncodingMatchesTable.Statement (.ldxa rd off8) :=
  (formatI8_and _ 0b11111#5 _ 0b000#3 _ 0b00000000#8).trans (by simp; rfl)

theorem EncodingMatchesTable.stx (rs ra : RegNum) (off5 : BitVec 5) : EncodingMatchesTable.Statement (.stx rs ra off5) :=
  (formatM_and _ 0b11111#5 _ 0b000#3 _ 0b000#3 _ 0b00000#5).trans (by simp; rfl)

theorem EncodingMatchesTable.stxa (rs : RegNum) (off8 : BitVec 8) : EncodingMatchesTable.Statement (.stxa rs off8) :=
  (formatI8_and _ 0b11111#5 _ 0b000#3 _ 0b00000000#8).trans (by simp; rfl)

theorem EncodingMatchesTable.movi (rd : RegNum) (imm8 : BitVec 8) : EncodingMatchesTable.Statement (.movi rd imm8) :=
  (formatI8_and _ 0b11111#5 _ 0b000#3 _ 0b00000000#8).trans (by simp; rfl)

theorem EncodingMatchesTable.movr (rd : RegNum) (off8 : BitVec 8) : EncodingMatchesTable.Statement (.movr rd off8) :=
  (formatI8_and _ 0b11111#5 _ 0b000#3 _ 0b00000000#8).trans (by simp; rfl)

theorem EncodingMatchesTable.stw (rb : RegNum) : EncodingMatchesTable.Statement (.stw rb) :=
  (formatM_and _ 0b11111#5 _ 0b111#3 _ 0b111#3 _ 0b11000#5).trans (by simp [plainLow_and]; rfl)

theorem EncodingMatchesTable.xchw (rd rb : RegNum) : EncodingMatchesTable.Statement (.xchw rd rb) :=
  (formatM_and _ 0b11111#5 _ 0b000#3 _ 0b111#3 _ 0b11000#5).trans (by simp [plainLow_and]; rfl)

theorem EncodingMatchesTable.adjw (imm5 : BitVec 5) : EncodingMatchesTable.Statement (.adjw imm5) :=
  (formatM_and _ 0b11111#5 _ 0b111#3 _ 0b111#3 _ 0b00000#5).trans (by simp; rfl)

theorem EncodingMatchesTable.ldw (rd : RegNum) (imm5 : BitVec 5) : EncodingMatchesTable.Statement (.ldw rd imm5) :=
  (formatM_and _ 0b11111#5 _ 0b000#3 _ 0b111#3 _ 0b00000#5).trans (by simp; rfl)

theorem EncodingMatchesTable.jr (rs : RegNum) (off5 : BitVec 5) : EncodingMatchesTable.Statement (.jr rs off5) :=
  (formatM_and _ 0b11111#5 _ 0b000#3 _ 0b111#3 _ 0b00000#5).trans (by simp; rfl)

theorem EncodingMatchesTable.jral (rd rb : RegNum) : EncodingMatchesTable.Statement (.jral rd rb) :=
  (formatM_and _ 0b11111#5 _ 0b000#3 _ 0b111#3 _ 0b11000#5).trans (by simp [plainLow_and]; rfl)

theorem EncodingMatchesTable.jvt (rs : RegNum) (off5 : BitVec 5) : EncodingMatchesTable.Statement (.jvt rs off5) :=
  (formatM_and _ 0b11111#5 _ 0b000#3 _ 0b111#3 _ 0b00000#5).trans (by simp; rfl)

theorem EncodingMatchesTable.jst (rs : RegNum) (off5 : BitVec 5) : EncodingMatchesTable.Statement (.jst rs off5) :=
  (formatM_and _ 0b11111#5 _ 0b000#3 _ 0b111#3 _ 0b00000#5).trans (by simp; rfl)

theorem EncodingMatchesTable.jal (rd : RegNum) (off8 : BitVec 8) : EncodingMatchesTable.Statement (.jal rd off8) :=
  (formatI8_and _ 0b11111#5 _ 0b000#3 _ 0b00000000#8).trans (by simp; rfl)

theorem EncodingMatchesTable.jnz (off8 : BitVec 8) : EncodingMatchesTable.Statement (.jnz off8) :=
  (formatC_and _ 0b1111#4 _ 0b00000000#8).trans (by simp; rfl)

theorem EncodingMatchesTable.jne (off8 : BitVec 8) : EncodingMatchesTable.Statement (.jne off8) :=
  (formatC_and _ 0b1111#4 _ 0b00000000#8).trans (by simp; rfl)

theorem EncodingMatchesTable.jns (off8 : BitVec 8) : EncodingMatchesTable.Statement (.jns off8) :=
  (formatC_and _ 0b1111#4 _ 0b00000000#8).trans (by simp; rfl)

theorem EncodingMatchesTable.jnc (off8 : BitVec 8) : EncodingMatchesTable.Statement (.jnc off8) :=
  (formatC_and _ 0b1111#4 _ 0b00000000#8).trans (by simp; rfl)

theorem EncodingMatchesTable.jult (off8 : BitVec 8) : EncodingMatchesTable.Statement (.jult off8) :=
  (formatC_and _ 0b1111#4 _ 0b00000000#8).trans (by simp; rfl)

theorem EncodingMatchesTable.jno (off8 : BitVec 8) : EncodingMatchesTable.Statement (.jno off8) :=
  (formatC_and _ 0b1111#4 _ 0b00000000#8).trans (by simp; rfl)

theorem EncodingMatchesTable.jugt (off8 : BitVec 8) : EncodingMatchesTable.Statement (.jugt off8) :=
  (formatC_and _ 0b1111#4 _ 0b00000000#8).trans (by simp; rfl)

theorem EncodingMatchesTable.jsge (off8 : BitVec 8) : EncodingMatchesTable.Statement (.jsge off8) :=
  (formatC_and _ 0b1111#4 _ 0b00000000#8).trans (by simp; rfl)

theorem EncodingMatchesTable.jsgt (off8 : BitVec 8) : EncodingMatchesTable.Statement (.jsgt off8) :=
  (formatC_and _ 0b1111#4 _ 0b00000000#8).trans (by simp; rfl)

theorem EncodingMatchesTable.jn (off8 : BitVec 8) : EncodingMatchesTable.Statement (.jn off8) :=
  (formatC_and _ 0b1111#4 _ 0b00000000#8).trans (by simp; rfl)

theorem EncodingMatchesTable.jz (off8 : BitVec 8) : EncodingMatchesTable.Statement (.jz off8) :=
  (formatC_and _ 0b1111#4 _ 0b00000000#8).trans (by simp; rfl)

theorem EncodingMatchesTable.je (off8 : BitVec 8) : EncodingMatchesTable.Statement (.je off8) :=
  (formatC_and _ 0b1111#4 _ 0b00000000#8).trans (by simp; rfl)

theorem EncodingMatchesTable.js (off8 : BitVec 8) : EncodingMatchesTable.Statement (.js off8) :=
  (formatC_and _ 0b1111#4 _ 0b00000000#8).trans (by simp; rfl)

theorem EncodingMatchesTable.jc (off8 : BitVec 8) : EncodingMatchesTable.Statement (.jc off8) :=
  (formatC_and _ 0b1111#4 _ 0b00000000#8).trans (by simp; rfl)

theorem EncodingMatchesTable.juge (off8 : BitVec 8) : EncodingMatchesTable.Statement (.juge off8) :=
  (formatC_and _ 0b1111#4 _ 0b00000000#8).trans (by simp; rfl)

theorem EncodingMatchesTable.jo (off8 : BitVec 8) : EncodingMatchesTable.Statement (.jo off8) :=
  (formatC_and _ 0b1111#4 _ 0b00000000#8).trans (by simp; rfl)

theorem EncodingMatchesTable.jule (off8 : BitVec 8) : EncodingMatchesTable.Statement (.jule off8) :=
  (formatC_and _ 0b1111#4 _ 0b00000000#8).trans (by simp; rfl)

theorem EncodingMatchesTable.jslt (off8 : BitVec 8) : EncodingMatchesTable.Statement (.jslt off8) :=
  (formatC_and _ 0b1111#4 _ 0b00000000#8).trans (by simp; rfl)

theorem EncodingMatchesTable.jsle (off8 : BitVec 8) : EncodingMatchesTable.Statement (.jsle off8) :=
  (formatC_and _ 0b1111#4 _ 0b00000000#8).trans (by simp; rfl)

theorem EncodingMatchesTable.j (off8 : BitVec 8) : EncodingMatchesTable.Statement (.j off8) :=
  (formatC_and _ 0b1111#4 _ 0b00000000#8).trans (by simp; rfl)

theorem EncodingMatchesTable.exti (imm13 : BitVec 13) : EncodingMatchesTable.Statement (.exti imm13) :=
  (formatX_and _ 0b0000000000000#13).trans (by simp; rfl)

end Sys2Proof.Laws
end

