-- ==== Sys2Proof/Tests/Slice0.lean ====
section
/-! SUPPORT. The author's own tests: ill-formed instructions, every constructor's decoding from a word written out
from the encodings of 30_encoding.md R81 to R85, one step of each instruction (expected results from the Example and Corner cases
lines of the instruction's rule, or from 95_test_vectors.md), and a witness for the hypotheses of each statement. -/

namespace Sys2Proof.Tests

open Sys2Proof.Machine Sys2Proof.Claims

/-! ## Helpers -/

/-- A state with `regs` in the window at `w` and `cells` elsewhere in memory; the rest as after reset. -/
def mk (pc w : Word) (regs : List (Nat × Word)) (cells : List (Nat × Word)) : State :=
  { State.reset with
    pc := .defined pc, w := w
    mem := (cells ++ regs.map fun r => (w.toNat + r.1, r.2)).foldl (fun m c => m.insert c.1 c.2) [] }

/-- The same state with the four flags set. -/
def flags (z n c v : Bool) (s : State) : State :=
  { s with flagZ := .defined z, flagS := .defined n, flagC := .defined c, flagV := .defined v }

/-- The same state right after EXTI. -/
def ext (e : BitVec 13) (s : State) : State := { s with ext13 := .defined e, hasExt13 := true }

/-- A register after a step. -/
def regOf (r : Result) (q : RegNum) : Option (Content Word) := match r with | .next t => some (t.reg q) | _ => none

/-- A word of memory after a step. -/
def wordOf (r : Result) (a : Word) : Option (Content Word) := match r with | .next t => some (t.memRead a) | _ => none

/-- Z, S, C and V after a step; none stands for UNDEFINED. -/
def flagsOf (r : Result) : List (Option Bool) :=
  let bit : Content Bool → Option Bool := fun c => match c with | .defined b => some b | .undefined => none
  match r with | .next t => [bit t.flagZ, bit t.flagS, bit t.flagC, bit t.flagV] | _ => []

/-- PC after a step; none where it is UNDEFINED or the step stops. -/
def pcOf (r : Result) : Option Word :=
  match r with | .next t => (match t.pc with | .defined p => some p | .undefined => none) | _ => none

/-- Whether PC is UNDEFINED after a step. -/
def pcUndefined (r : Result) : Bool := match r with | .next t => !t.pc.isDefined | _ => false

/-- W after a step. -/
def wOf (r : Result) : Option Word := match r with | .next t => some t.w | _ => none

/-- The fault of a step. -/
def faultOf (r : Result) : Option Fault := match r with | .fault f => some f | _ => none

/-- ext13 and has_ext13 after a step. -/
def extOf (r : Result) : Option (Content (BitVec 13) × Bool) :=
  match r with | .next t => some (t.ext13, t.hasExt13) | _ => none

/-- The bus cycles after a step. -/
def busOf (r : Result) : Option (List ExtEvent) := match r with | .next t => some t.extTrace | _ => none

/-! ## Ill-formed instructions, one for each check of `OperandField.wellFormed` -/

-- R9, R110
theorem test_illformed_tbd_row :
    Instr.wellFormed false (.addi 1 2 3#3) = false ∧ Instr.wellFormed true (.addi 1 2 3#3) = true := by decide

-- R141
theorem test_illformed_window_amount :
    Instr.wellFormed false (.adjw 0b00111#5) = false ∧ Instr.wellFormed false (.adjw 0b01000#5) = true := by decide

-- R87, R142
theorem test_illformed_window_long :
    Instr.wellFormed true (.ldw 6 0b01000#5) = false ∧ Instr.wellFormed true (.ldw 6 0#5) = true := by decide

-- R87
theorem test_illformed_off5_long :
    Instr.wellFormed true (.ld 1 2 0b01000#5) = false ∧ Instr.wellFormed true (.ld 1 2 0b00111#5) = true := by decide

-- R87
theorem test_illformed_off8_long :
    Instr.wellFormed true (.jn 0b00001000#8) = false ∧ Instr.wellFormed true (.jn 0b00000111#8) = true := by decide

/-! ## Decoding: the bits in the order of the figures, split at the fields -/

-- R83: opcode 00000, Rd = 1, Ra = 6, type, Rb = 3
theorem test_decode_logic :
    decode 0b0000000111000011 = .ok (.and 1 6 3) ∧
    decode 0b0000000111001011 = .ok (.or 1 6 3) ∧
    decode 0b0000000111010011 = .ok (.xor 1 6 3) ∧
    decode 0b0000000011011011 = .ok (.cmp 6 3) := by decide

-- R83: opcode 00001, type, imm3 = 4
theorem test_decode_logic_imm :
    decode 0b0000100111000100 = .ok (.andi 1 6 4) ∧
    decode 0b0000100111001100 = .ok (.ori 1 6 4) ∧
    decode 0b0000100111010100 = .ok (.xori 1 6 4) ∧
    decode 0b0000100011011100 = .ok (.cmpi 6 4) := by decide

-- R83: opcode 00010
theorem test_decode_arith :
    decode 0b0001000111000011 = .ok (.add 1 6 3) ∧
    decode 0b0001000111001011 = .ok (.adc 1 6 3) ∧
    decode 0b0001000111010011 = .ok (.sub 1 6 3) ∧
    decode 0b0001000111011011 = .ok (.sbb 1 6 3) := by decide

-- R83: opcode 00011
theorem test_decode_arith_imm :
    decode 0b0001100111000100 = .ok (.addi 1 6 4) ∧
    decode 0b0001100111001100 = .ok (.adci 1 6 4) ∧
    decode 0b0001100111010100 = .ok (.subi 1 6 4) ∧
    decode 0b0001100111011100 = .ok (.sbbi 1 6 4) := by decide

-- R83: opcode 00100
theorem test_decode_shift :
    decode 0b0010000111000011 = .ok (.sll 1 6 3) ∧
    decode 0b0010000111001011 = .ok (.rol 1 6 3) ∧
    decode 0b0010000111010011 = .ok (.srl 1 6 3) ∧
    decode 0b0010000111011011 = .ok (.sra 1 6 3) := by decide

-- R83: opcode 00101
theorem test_decode_shift_imm :
    decode 0b0010100111000100 = .ok (.slli 1 6 4) ∧
    decode 0b0010100111001100 = .ok (.roli 1 6 4) ∧
    decode 0b0010100111010100 = .ok (.srli 1 6 4) ∧
    decode 0b0010100111011100 = .ok (.srai 1 6 4) := by decide

-- R82: format M with off5 = 10011, format I8 with off8 = 10010110
theorem test_decode_memory :
    decode 0b0100000111010011 = .ok (.ld 1 6 0b10011) ∧
    decode 0b0100100111010011 = .ok (.ldr 1 6 0b10011) ∧
    decode 0b0101000111010011 = .ok (.st 1 6 0b10011) ∧
    decode 0b0101100111010011 = .ok (.str 1 6 0b10011) ∧
    decode 0b0110000111010011 = .ok (.ldx 1 6 0b10011) ∧
    decode 0b0110100110010110 = .ok (.ldxa 1 0b10010110) ∧
    decode 0b0111000111010011 = .ok (.stx 1 6 0b10011) ∧
    decode 0b0111100110010110 = .ok (.stxa 1 0b10010110) := by decide

-- R82: MOVI, MOVR, JAL, EXTI
theorem test_decode_moves :
    decode 0b1000001110010110 = .ok (.movi 3 0b10010110) ∧
    decode 0b1000101110010110 = .ok (.movr 3 0b10010110) ∧
    decode 0b1010101110010110 = .ok (.jal 3 0b10010110) ∧
    decode 0b1101001011010011 = .ok (.exti 0b1001011010011) := by decide

-- R84: opcode 10100 by its sub field
theorem test_decode_window :
    decode 0b1010000000000011 = .ok (.stw 3) ∧
    decode 0b1010000100100011 = .ok (.xchw 1 3) ∧
    decode 0b1010000001010011 = .ok (.adjw 0b10011) ∧
    decode 0b1010000101110011 = .ok (.ldw 1 0b10011) ∧
    decode 0b1010000110010011 = .ok (.jr 1 0b10011) ∧
    decode 0b1010000110100011 = .ok (.jral 1 3) ∧
    decode 0b1010000111010011 = .ok (.jvt 1 0b10011) ∧
    decode 0b1010000111110011 = .ok (.jst 1 0b10011) := by decide

-- R85: format C by its cond field
theorem test_decode_jumps :
    decode 0b1011000010010110 = .ok (.jnz 0b10010110) ∧
    decode 0b1011000110010110 = .ok (.jns 0b10010110) ∧
    decode 0b1011001010010110 = .ok (.jnc 0b10010110) ∧
    decode 0b1011001110010110 = .ok (.jno 0b10010110) ∧
    decode 0b1011010010010110 = .ok (.jugt 0b10010110) ∧
    decode 0b1011010110010110 = .ok (.jsge 0b10010110) ∧
    decode 0b1011011010010110 = .ok (.jsgt 0b10010110) ∧
    decode 0b1011011110010110 = .ok (.jn 0b10010110) ∧
    decode 0b1011100010010110 = .ok (.jz 0b10010110) ∧
    decode 0b1011100110010110 = .ok (.js 0b10010110) ∧
    decode 0b1011101010010110 = .ok (.jc 0b10010110) ∧
    decode 0b1011101110010110 = .ok (.jo 0b10010110) ∧
    decode 0b1011110010010110 = .ok (.jule 0b10010110) ∧
    decode 0b1011110110010110 = .ok (.jslt 0b10010110) ∧
    decode 0b1011111010010110 = .ok (.jsle 0b10010110) ∧
    decode 0b1011111110010110 = .ok (.j 0b10010110) := by decide

-- R90: the second names encode to the words of the first ones, which the decoder answers
theorem test_decode_second_names :
    encode (.jne 0b10010110) = 0b1011000010010110 ∧ decode (encode (.jne 0b10010110)) = .ok (.jnz 0b10010110) ∧
    encode (.jult 0b10010110) = 0b1011001010010110 ∧ decode (encode (.jult 0b10010110)) = .ok (.jnc 0b10010110) ∧
    encode (.je 0b10010110) = 0b1011100010010110 ∧ decode (encode (.je 0b10010110)) = .ok (.jz 0b10010110) ∧
    encode (.juge 0b10010110) = 0b1011101010010110 ∧ decode (encode (.juge 0b10010110)) = .ok (.jc 0b10010110) := by decide

-- R88: one word of each pattern that is not present, rejected by its name
theorem test_decode_rejects :
    decode 0b0011000000000000 = .error .majorOpcodeUnassigned ∧
    decode 0b0011111111111111 = .error .majorOpcodeUnassigned ∧
    decode 0b1001000000000000 = .error .majorOpcodeUnassigned ∧
    decode 0b1001111111111111 = .error .majorOpcodeUnassigned ∧
    decode 0b1110000000000000 = .error .majorOpcodeUnassigned ∧
    decode 0b1111111111111111 = .error .majorOpcodeUnassigned ∧
    decode 0b0000000111011011 = .error .compareHasDestination ∧
    decode 0b0000110011011011 = .error .compareHasDestination ∧
    decode 0b1010000100000011 = .error .stwConstantBits ∧
    decode 0b1010000000001011 = .error .stwConstantBits ∧
    decode 0b1010000100110011 = .error .xchwConstantBits ∧
    decode 0b1010000101001000 = .error .adjwConstantBits ∧
    decode 0b1010000110101011 = .error .jralConstantBits := by decide

-- the host's reading of a table word, and a step from reset that fetches it (R53)
theorem test_decodeTableWord : decodeTableWord 16 0x8A05 = some (.movr 2 5) ∧ decodeTableWord 16 0x3000 = none := by decide

theorem test_first_step : pcOf (step (State.reset.withFetchWord 16 0x8A05)) = some 0x0001 ∧
    regOf (step (State.reset.withFetchWord 16 0x8A05)) 2 = some (.defined 0x0006) := by decide

/-! ## One step of each instruction -/

-- R114 example
theorem test_add :
    let s := mk 0x0010 0xFFF8 [(2, 0x1234), (4, 0x4321)] []
    regOf (exec (.add 0 2 4) s) 0 = some (.defined 0x5555) ∧ flagsOf (exec (.add 0 2 4) s) = [some false, some false, some false, some false] ∧ pcOf (exec (.add 0 2 4) s) = some 0x0011 := by decide

-- 95_test_vectors.md T4
theorem test_add_wraps :
    let s := mk 0x0010 0xFFF8 [(1, 0x8000)] []
    regOf (exec (.add 1 1 1) s) 1 = some (.defined 0x0000) ∧ flagsOf (exec (.add 1 1 1) s) = [some true, some false, some true, some true] := by decide

-- R112 example
theorem test_adc :
    let s := flags false false true false (mk 0x0010 0xFFF8 [(3, 0xFFFF), (5, 0x0000)] [])
    regOf (exec (.adc 1 3 5) s) 1 = some (.defined 0x0000) ∧ flagsOf (exec (.adc 1 3 5) s) = [some true, some false, some true, some false] := by decide

-- R112 corner case
theorem test_adc_undefined_carry :
    let s := mk 0x0010 0xFFF8 [(3, 0xFFFF), (5, 0x0000)] []
    regOf (exec (.adc 1 3 5) s) 1 = some .undefined ∧ flagsOf (exec (.adc 1 3 5) s) = [none, none, none, none] := by decide

-- R115 example
theorem test_addi :
    let s := mk 0x0010 0xFFF8 [(2, 0x00FF)] []
    regOf (exec (.addi 0 2 1) s) 0 = some (.defined 0x0100) ∧ flagsOf (exec (.addi 0 2 1) s) = [some false, some false, some false, some false] := by decide

-- R113 example
theorem test_adci :
    let s := ext 0 (flags false false true false (mk 0x0010 0xFFF8 [(3, 0x0003)] []))
    regOf (exec (.adci 1 3 4) s) 1 = some (.defined 0x0008) ∧ flagsOf (exec (.adci 1 3 4) s) = [some false, some false, some false, some false] := by decide

-- R124 example
theorem test_sub :
    let s := mk 0x0010 0xFFF8 [(2, 0x0003), (4, 0x0005)] []
    regOf (exec (.sub 0 2 4) s) 0 = some (.defined 0xFFFE) ∧ flagsOf (exec (.sub 0 2 4) s) = [some false, some true, some false, some false] := by decide

-- R124 corner case: 0 - 0x8000
theorem test_sub_overflow :
    let s := mk 0x0010 0xFFF8 [(2, 0x0000), (4, 0x8000)] []
    regOf (exec (.sub 0 2 4) s) 0 = some (.defined 0x8000) ∧ flagsOf (exec (.sub 0 2 4) s) = [some false, some true, some false, some true] := by decide

-- R122 example
theorem test_sbb :
    let s := flags false false false false (mk 0x0010 0xFFF8 [(3, 0x0005), (5, 0x0003)] [])
    regOf (exec (.sbb 1 3 5) s) 1 = some (.defined 0x0001) ∧ flagsOf (exec (.sbb 1 3 5) s) = [some false, some false, some true, some false] := by decide

-- R122 corner case: 0 - 0xFFFF with C = 0
theorem test_sbb_borrow :
    let s := flags false false false false (mk 0x0010 0xFFF8 [(3, 0x0000), (5, 0xFFFF)] [])
    regOf (exec (.sbb 1 3 5) s) 1 = some (.defined 0x0000) ∧ flagsOf (exec (.sbb 1 3 5) s) = [some true, some false, some false, some false] := by decide

-- R125 example
theorem test_subi :
    let s := mk 0x0010 0xFFF8 [(2, 0x0100)] []
    regOf (exec (.subi 0 2 4) s) 0 = some (.defined 0x0001) ∧ flagsOf (exec (.subi 0 2 4) s) = [some false, some false, some true, some false] := by decide

-- R123 example
theorem test_sbbi :
    let s := ext 0 (flags false false false false (mk 0x0010 0xFFF8 [(3, 0x0007)] []))
    regOf (exec (.sbbi 1 3 4) s) 1 = some (.defined 0x0002) ∧ flagsOf (exec (.sbbi 1 3 4) s) = [some false, some false, some true, some false] := by decide

-- R118 example
theorem test_cmp :
    let s := mk 0x0010 0xFFF8 [(1, 0x8000), (2, 0x7FFF)] []
    regOf (exec (.cmp 1 2) s) 1 = some (.defined 0x8000) ∧ flagsOf (exec (.cmp 1 2) s) = [some false, some false, some true, some true] := by decide

-- R119 example
theorem test_cmpi :
    let s := mk 0x0010 0xFFF8 [(3, 0x0000)] []
    regOf (exec (.cmpi 3 1) s) 3 = some (.defined 0x0000) ∧ flagsOf (exec (.cmpi 3 1) s) = [some false, some true, some false, some false] := by decide

-- R116 example
theorem test_and :
    let s := mk 0x0010 0xFFF8 [(2, 0xF0F0), (3, 0x3C3C)] []
    regOf (exec (.and 1 2 3) s) 1 = some (.defined 0x3030) ∧ flagsOf (exec (.and 1 2 3) s) = [some false, some false, none, none] := by decide

-- R117 example
theorem test_andi :
    let s := mk 0x0010 0xFFF8 [(1, 0xABCD)] []
    regOf (exec (.andi 1 1 4) s) 1 = some (.defined 0x00CD) ∧ flagsOf (exec (.andi 1 1 4) s) = [some false, some false, none, none] := by decide

-- R120 example
theorem test_or :
    let s := mk 0x0010 0xFFF8 [(2, 0xF0F0), (3, 0x3C3C)] []
    regOf (exec (.or 1 2 3) s) 1 = some (.defined 0xFCFC) ∧ flagsOf (exec (.or 1 2 3) s) = [some false, some true, none, none] := by decide

-- R121 example
theorem test_ori :
    let s := mk 0x0010 0xFFF8 [(0, 0x0001)] []
    regOf (exec (.ori 0 0 2) s) 0 = some (.defined 0x8001) ∧ flagsOf (exec (.ori 0 0 2) s) = [some false, some true, none, none] := by decide

-- R126 example
theorem test_xor :
    let s := mk 0x0010 0xFFF8 [(2, 0xF0F0), (3, 0x3C3C)] []
    regOf (exec (.xor 1 2 3) s) 1 = some (.defined 0xCCCC) ∧ flagsOf (exec (.xor 1 2 3) s) = [some false, some true, none, none] := by decide

-- R126 corner case: the result is 0 only if Ra is defined
theorem test_xor_undefined :
    let s := mk 0x0010 0xFFF8 [] []
    regOf (exec (.xor 1 2 2) s) 1 = some .undefined ∧ flagsOf (exec (.xor 1 2 2) s) = [none, none, none, none] := by decide

-- R127 example
theorem test_xori :
    let s := mk 0x0010 0xFFF8 [(2, 0x00FF)] []
    regOf (exec (.xori 2 2 7) s) 2 = some (.defined 0xFF00) ∧ flagsOf (exec (.xori 2 2 7) s) = [some false, some true, none, none] := by decide

-- R223 example
theorem test_sll :
    let s := mk 0x0010 0xFFF8 [(2, 0x8001), (3, 0x000F)] []
    regOf (exec (.sll 1 2 3) s) 1 = some (.defined 0x8000) ∧ flagsOf (exec (.sll 1 2 3) s) = [some false, some true, none, none] := by decide

-- R223 corner case: not a result of 0
theorem test_sll_above_15 :
    let s := mk 0x0010 0xFFF8 [(2, 0x8001), (3, 0x0010)] []
    faultOf (exec (.sll 1 2 3) s) = some .shiftAmountAbove15 := by decide

-- R221 example
theorem test_rol :
    let s := mk 0x0010 0xFFF8 [(2, 0x8001), (3, 0x0004)] []
    regOf (exec (.rol 1 2 3) s) 1 = some (.defined 0x0018) ∧ flagsOf (exec (.rol 1 2 3) s) = [some false, some false, none, none] := by decide

-- R221 corner case: amount 0
theorem test_rol_zero :
    let s := mk 0x0010 0xFFF8 [(2, 0x8001), (3, 0x0000)] []
    regOf (exec (.rol 1 2 3) s) 1 = some (.defined 0x8001) ∧ flagsOf (exec (.rol 1 2 3) s) = [some false, some true, none, none] := by decide

-- R227 example
theorem test_srl :
    let s := mk 0x0010 0xFFF8 [(2, 0x8001), (3, 0x0004)] []
    regOf (exec (.srl 1 2 3) s) 1 = some (.defined 0x0800) ∧ flagsOf (exec (.srl 1 2 3) s) = [some false, some false, none, none] := by decide

-- R225 example
theorem test_sra :
    let s := mk 0x0010 0xFFF8 [(2, 0x8001), (3, 0x0004)] []
    regOf (exec (.sra 1 2 3) s) 1 = some (.defined 0xF800) ∧ flagsOf (exec (.sra 1 2 3) s) = [some false, some true, none, none] := by decide

-- R224 example: 0 stands for 8
theorem test_slli :
    let s := mk 0x0010 0xFFF8 [(2, 0x8001)] []
    regOf (exec (.slli 1 2 0) s) 1 = some (.defined 0x0100) ∧ flagsOf (exec (.slli 1 2 0) s) = [some false, some false, none, none] := by decide

-- R222 example, long form: ROLI by 12
theorem test_roli :
    let s := ext 1 (mk 0x0010 0xFFF8 [(0, 0x1234)] [])
    regOf (exec (.roli 0 0 4) s) 0 = some (.defined 0x4123) ∧ flagsOf (exec (.roli 0 0 4) s) = [some false, some false, none, none] := by decide

-- R228 example
theorem test_srli :
    let s := mk 0x0010 0xFFF8 [(2, 0x8001)] []
    regOf (exec (.srli 1 2 4) s) 1 = some (.defined 0x0800) ∧ flagsOf (exec (.srli 1 2 4) s) = [some false, some false, none, none] := by decide

-- R226 example
theorem test_srai :
    let s := mk 0x0010 0xFFF8 [(2, 0x8001)] []
    regOf (exec (.srai 1 2 4) s) 1 = some (.defined 0xF800) ∧ flagsOf (exec (.srai 1 2 4) s) = [some false, some true, none, none] := by decide

-- R220: a long-form amount of 16
theorem test_srai_above_15 :
    let s := ext 2 (mk 0x0010 0xFFF8 [(2, 0x8001)] [])
    faultOf (exec (.srai 1 2 0) s) = some .shiftAmountAbove15 := by decide

-- R201 example
theorem test_ld :
    let s := mk 0x0010 0xFFF8 [(2, 0x1000)] [(0x1003, 0xBEEF)]
    regOf (exec (.ld 1 2 3) s) 1 = some (.defined 0xBEEF) ∧ flagsOf (exec (.ld 1 2 3) s) = [none, none, none, none] := by decide

-- R201 corner case: Rd is the pointer, the word a register
theorem test_ld_register :
    let s := mk 0x0010 0xFFF8 [(2, 0xFFFD), (5, 0x0077)] []
    regOf (exec (.ld 2 2 0) s) 2 = some (.defined 0x0077) := by decide

-- R202 example
theorem test_ldr :
    let s := mk 0x0100 0xFFF8 [(1, 0x0002)] [(0x0105, 0x1234)]
    regOf (exec (.ldr 0 1 2) s) 0 = some (.defined 0x1234) := by decide

-- R205 example
theorem test_st :
    let s := mk 0x0010 0xFFF8 [(1, 0x00AA), (2, 0x1001)] []
    wordOf (exec (.st 1 2 0x1F) s) 0x1000 = some (.defined 0x00AA) := by decide

-- R54: with R2 = W + 3, ST R1, R2, 0 sets R3
theorem test_st_register :
    let s := mk 0x0010 0xFFF8 [(1, 0x00AA), (2, 0xFFFB)] []
    regOf (exec (.st 1 2 0) s) 3 = some (.defined 0x00AA) := by decide

-- R206 example
theorem test_str :
    let s := mk 0x0100 0xFFF8 [(0, 0x0000), (5, 0xCAFE)] []
    wordOf (exec (.str 5 0 4) s) 0x0105 = some (.defined 0xCAFE) := by decide

-- R207 example
theorem test_stx :
    let s := mk 0x0010 0xFFF8 [(2, 0x0055), (3, 0x0020)] []
    busOf (exec (.stx 2 3 1) s) = some [.write 0x0021 0x0055] := by decide

-- R208 example, long form
theorem test_stxa :
    let s := ext 0x1000 (mk 0x0010 0xFFF8 [(0, 0x0041)] [])
    busOf (exec (.stxa 0 0) s) = some [.write 0x8000 0x0041] := by decide

-- R203, R204: one load cycle, and the answer, whatever it is, in Rd; LDXA sign-extends its address
theorem test_ldx :
    let s := mk 0x0010 0xFFF8 [(4, 0x0040)] []
    busOf (exec (.ldx 3 4 0) s) = some [.read 0x0040 (Config.extAnswer [] 0x0040)] ∧
    regOf (exec (.ldx 3 4 0) s) 3 = some (.defined (Config.extAnswer [] 0x0040)) := ⟨rfl, rfl⟩

theorem test_ldxa :
    let s := mk 0x0010 0xFFF8 [] []
    busOf (exec (.ldxa 1 0x80) s) = some [.read 0xFF80 (Config.extAnswer [] 0xFF80)] ∧
    regOf (exec (.ldxa 1 0x80) s) 1 = some (.defined (Config.extAnswer [] 0xFF80)) := ⟨rfl, rfl⟩

-- R151 example
theorem test_movi :
    let s := mk 0x0010 0xFFF8 [] []
    regOf (exec (.movi 1 0xFF) s) 1 = some (.defined 0xFFFF) ∧ flagsOf (exec (.movi 1 0xFF) s) = [none, none, none, none] := by decide

-- R150, R151 example
theorem test_movi_long :
    let s := ext 0x0246 (mk 0x0010 0xFFF8 [] [])
    regOf (exec (.movi 0 4) s) 0 = some (.defined 0x1234) := by decide

-- R152 example
theorem test_movr :
    let s := mk 0x0100 0xFFF8 [] []
    regOf (exec (.movr 2 5) s) 2 = some (.defined 0x0106) ∧ pcOf (exec (.movr 2 5) s) = some 0x0101 := by decide

-- R150 example
theorem test_exti :
    let s := mk 0x0010 0xFFF8 [] []
    extOf (exec (.exti 0x0246) s) = some (.defined 0x0246, true) ∧ pcOf (exec (.exti 0x0246) s) = some 0x0011 := by decide

-- R150 corner case: the second replaces the first
theorem test_exti_twice :
    let s := ext 0x1FFF (mk 0x0010 0xFFF8 [] [])
    extOf (exec (.exti 1) s) = some (.defined 1, true) := by decide

-- R141 example
theorem test_adjw :
    let s := mk 0x0010 0xFFF8 [] []
    wOf (exec (.adjw 0b11000) s) = some 0xFFF0 := by decide

-- R141: a short form of 7
theorem test_adjw_not_multiple :
    let s := mk 0x0010 0xFFF8 [] []
    faultOf (exec (.adjw 7) s) = some .windowNotMultipleOf8 := by decide

-- R142 example
theorem test_ldw :
    let s := mk 0x0010 0xFFF8 [] []
    wOf (exec (.ldw 6 0b11000) s) = some 0xFFF0 ∧ wordOf (exec (.ldw 6 0b11000) s) 0xFFF6 = some (.defined 0xFFF8) := by decide

-- R143 example
theorem test_stw :
    let s := mk 0x0010 0xFFF0 [(6, 0xFFF8)] []
    wOf (exec (.stw 6) s) = some 0xFFF8 ∧ wordOf (exec (.stw 6) s) 0xFFF6 = some (.defined 0xFFF8) := by decide

-- R143 corner case
theorem test_stw_undefined :
    let s := mk 0x0010 0xFFF0 [] []
    faultOf (exec (.stw 6) s) = some .windowNotMultipleOf8 := by decide

-- R144 example
theorem test_xchw :
    let s := mk 0x0010 0x1000 [(7, 0x2000)] []
    wOf (exec (.xchw 7 7) s) = some 0x2000 ∧ wordOf (exec (.xchw 7 7) s) 0x2007 = some (.defined 0x1000) ∧ wordOf (exec (.xchw 7 7) s) 0x1007 = some (.defined 0x2000) := by decide

-- R162 example
theorem test_j :
    let s := mk 0x0010 0xFFF8 [] []
    pcOf (exec (.j 0x05) s) = some 0x0016 := by decide

-- R162 corner case
theorem test_j_self :
    let s := mk 0xFFFF 0xFFF8 [] []
    pcOf (exec (.j 0xFF) s) = some 0xFFFF := by decide

-- R166 example
theorem test_jn :
    let s := mk 0x0008 0xFFF8 [] []
    pcOf (exec (.jn 0x40) s) = some 0x0009 := by decide

-- R166: the restriction holds although the offset is unused
theorem test_jn_long :
    let s := ext 0 (mk 0x0010 0xFFF8 [] [])
    faultOf (exec (.jn 0x08) s) = some .longFormHighBits := by decide

-- R163 example
theorem test_jal :
    let s := mk 0x0020 0xFFF8 [] []
    regOf (exec (.jal 0 0x10) s) 0 = some (.defined 0x0021) ∧ pcOf (exec (.jal 0 0x10) s) = some 0x0031 := by decide

-- R173 example
theorem test_jr :
    let s := mk 0x0010 0xFFF8 [(3, 0x0100)] []
    pcOf (exec (.jr 3 2) s) = some 0x0102 := by decide

-- R174 corner case: JRAL R1, R1
theorem test_jral :
    let s := mk 0x0040 0xFFF8 [(1, 0x0200)] []
    regOf (exec (.jral 1 1) s) 1 = some (.defined 0x0041) ∧ pcOf (exec (.jral 1 1) s) = some 0x0200 := by decide

-- R180 example
theorem test_jst :
    let s := mk 0x0010 0xFFF8 [(1, 0x0002)] [(0x0011, 0x0003), (0x0012, 0x0005), (0x0013, 0x0007)]
    pcOf (exec (.jst 1 0) s) = some 0x0018 := by decide

-- R185 example
theorem test_jvt :
    let s := mk 0x0010 0xFFF8 [(1, 0x0300)] [(0x0302, 0x0020)]
    pcOf (exec (.jvt 1 2) s) = some 0x0320 := by decide

-- R10, R173, R174: a target computed from an UNDEFINED register leaves PC UNDEFINED; the instruction after it leaves it so
theorem test_jr_undefined :
    let s := mk 0x0010 0xFFF8 [] []
    pcUndefined (exec (.jr 3 2) s) = true ∧ pcUndefined (exec (.jral 1 2) s) = true ∧
    pcUndefined (exec (.movi 1 2) { s with pc := .undefined }) = true ∧
    regOf (exec (.jal 1 2) { s with pc := .undefined }) 1 = some .undefined := by decide

-- R10, R203: a load cycle at an UNDEFINED address leaves Rd UNDEFINED
theorem test_ldx_undefined : regOf (exec (.ldx 3 4 0) (mk 0x0010 0xFFF8 [] [])) 3 = some .undefined := by rfl

-- R161: each conditional jump at 0x0008 with off8 = 3, taken (to 0x000C) and not taken, on flags Z S C V
theorem test_jnz :
    pcOf (exec (.jnz 3) (flags false false false false (mk 0x0008 0xFFF8 [] []))) = some 0x000C ∧
    pcOf (exec (.jnz 3) (flags true false false false (mk 0x0008 0xFFF8 [] []))) = some 0x0009 := by decide

theorem test_jne :
    pcOf (exec (.jne 3) (flags false false false false (mk 0x0008 0xFFF8 [] []))) = some 0x000C ∧
    pcOf (exec (.jne 3) (flags true false false false (mk 0x0008 0xFFF8 [] []))) = some 0x0009 := by decide

theorem test_jz :
    pcOf (exec (.jz 3) (flags true false false false (mk 0x0008 0xFFF8 [] []))) = some 0x000C ∧
    pcOf (exec (.jz 3) (flags false false false false (mk 0x0008 0xFFF8 [] []))) = some 0x0009 := by decide

theorem test_je :
    pcOf (exec (.je 3) (flags true false false false (mk 0x0008 0xFFF8 [] []))) = some 0x000C ∧
    pcOf (exec (.je 3) (flags false true true true (mk 0x0008 0xFFF8 [] []))) = some 0x0009 := by decide

theorem test_jns :
    pcOf (exec (.jns 3) (flags true false true true (mk 0x0008 0xFFF8 [] []))) = some 0x000C ∧
    pcOf (exec (.jns 3) (flags false true false false (mk 0x0008 0xFFF8 [] []))) = some 0x0009 := by decide

theorem test_js :
    pcOf (exec (.js 3) (flags false true false false (mk 0x0008 0xFFF8 [] []))) = some 0x000C ∧
    pcOf (exec (.js 3) (flags true false true true (mk 0x0008 0xFFF8 [] []))) = some 0x0009 := by decide

theorem test_jnc :
    pcOf (exec (.jnc 3) (flags true true false true (mk 0x0008 0xFFF8 [] []))) = some 0x000C ∧
    pcOf (exec (.jnc 3) (flags false false true false (mk 0x0008 0xFFF8 [] []))) = some 0x0009 := by decide

theorem test_jult :
    pcOf (exec (.jult 3) (flags false false false false (mk 0x0008 0xFFF8 [] []))) = some 0x000C ∧
    pcOf (exec (.jult 3) (flags false false true false (mk 0x0008 0xFFF8 [] []))) = some 0x0009 := by decide

theorem test_jc :
    pcOf (exec (.jc 3) (flags false false true false (mk 0x0008 0xFFF8 [] []))) = some 0x000C ∧
    pcOf (exec (.jc 3) (flags true true false true (mk 0x0008 0xFFF8 [] []))) = some 0x0009 := by decide

theorem test_juge :
    pcOf (exec (.juge 3) (flags false false true false (mk 0x0008 0xFFF8 [] []))) = some 0x000C ∧
    pcOf (exec (.juge 3) (flags false false false false (mk 0x0008 0xFFF8 [] []))) = some 0x0009 := by decide

theorem test_jno :
    pcOf (exec (.jno 3) (flags true true true false (mk 0x0008 0xFFF8 [] []))) = some 0x000C ∧
    pcOf (exec (.jno 3) (flags false false false true (mk 0x0008 0xFFF8 [] []))) = some 0x0009 := by decide

theorem test_jo :
    pcOf (exec (.jo 3) (flags false false false true (mk 0x0008 0xFFF8 [] []))) = some 0x000C ∧
    pcOf (exec (.jo 3) (flags true true true false (mk 0x0008 0xFFF8 [] []))) = some 0x0009 := by decide

theorem test_jugt :
    pcOf (exec (.jugt 3) (flags false false true false (mk 0x0008 0xFFF8 [] []))) = some 0x000C ∧
    pcOf (exec (.jugt 3) (flags true false true false (mk 0x0008 0xFFF8 [] []))) = some 0x0009 := by decide

theorem test_jule :
    pcOf (exec (.jule 3) (flags true false true false (mk 0x0008 0xFFF8 [] []))) = some 0x000C ∧
    pcOf (exec (.jule 3) (flags false false true true (mk 0x0008 0xFFF8 [] []))) = some 0x0009 := by decide

theorem test_jsge :
    pcOf (exec (.jsge 3) (flags false true false true (mk 0x0008 0xFFF8 [] []))) = some 0x000C ∧
    pcOf (exec (.jsge 3) (flags false true false false (mk 0x0008 0xFFF8 [] []))) = some 0x0009 := by decide

theorem test_jslt :
    pcOf (exec (.jslt 3) (flags false false false true (mk 0x0008 0xFFF8 [] []))) = some 0x000C ∧
    pcOf (exec (.jslt 3) (flags true true false true (mk 0x0008 0xFFF8 [] []))) = some 0x0009 := by decide

theorem test_jsgt :
    pcOf (exec (.jsgt 3) (flags false true false true (mk 0x0008 0xFFF8 [] []))) = some 0x000C ∧
    pcOf (exec (.jsgt 3) (flags true true false true (mk 0x0008 0xFFF8 [] []))) = some 0x0009 := by decide

theorem test_jsle :
    pcOf (exec (.jsle 3) (flags true false false false (mk 0x0008 0xFFF8 [] []))) = some 0x000C ∧
    pcOf (exec (.jsle 3) (flags false true false true (mk 0x0008 0xFFF8 [] []))) = some 0x0009 := by decide

/-! ## Witnesses: for each statement with hypotheses, a state and operands that meet them, one for each clause -/

/-- A state on which most instructions run: the window at 0x1000, R1 = 8, R2 = 0x1003, R3 = 0x8000, R4 = 15, R5 = 16, R6 = R1. -/
def base : State :=
  flags false false true false
    (mk 0x0100 0x1000 [(1, 0x0008), (2, 0x1003), (3, 0x8000), (4, 0x000F), (5, 0x0010), (6, 0x0008)] [])

theorem witness_DecodeThenEncodeIsIdentity :
    decode 0x116D = .ok (.adc 1 3 5) ∧ decode 0xB8FE = .ok (.jz 0xFE) := by decide

theorem witness_WordsNotPresentAreThePatternsOfTheTable :
    NotPresent (State.withFetchWord base 16 0x37FF).fetch ∧ NotPresent (State.withFetchWord base 16 0x9000).fetch ∧
    NotPresent (State.withFetchWord base 16 0xE000).fetch ∧ NotPresent (State.withFetchWord base 16 0x0118).fetch ∧
    NotPresent (State.withFetchWord base 16 0xA100).fetch ∧ NotPresent (State.withFetchWord base 16 0xA008).fetch ∧
    NotPresent (State.withFetchWord base 16 0xA028).fetch ∧ NotPresent (State.withFetchWord base 16 0xA140).fetch ∧
    NotPresent (State.withFetchWord base 16 0xA0A8).fetch := by
  refine ⟨?_, ?_, ?_, ?_, ?_, ?_, ?_, ?_, ?_⟩ <;> (simp only [NotPresent]; decide)

theorem witness_StepRunsTheDecodedInstruction :
    let s := State.withFetchWord base 16 0x116D
    wordAt s s.pc = .defined 0x116D ∧ decode 0x116D = .ok (.adc 1 3 5) := by decide

-- each condition at its boundary: a field of 8, an amount of 16, a value of 4, and an UNDEFINED one (R0)
theorem witness_FaultsAreExactlyTheListedConditions :
    LongFormHighBits (ext 0 base) (.adjw 8) ∧ LongFormHighBits (ext 0 base) (.ld 1 2 8) ∧
    LongFormHighBits (ext 0 base) (.jn 8) ∧
    WindowNotMultipleOf8 base (.adjw 4) ∧ WindowNotMultipleOf8 base (.stw 0) ∧
    ShiftAmountAbove15 base (.sll 1 3 5) ∧ ShiftAmountAbove15 base (.sll 1 3 0) ∧
    ShiftAmountAbove15 (ext 2 base) (.slli 1 3 0) := by
  refine ⟨⟨rfl, .inl ⟨_, rfl, by decide⟩⟩, ⟨rfl, .inr (.inl ⟨_, rfl, by decide⟩)⟩,
    ⟨rfl, .inr (.inr ⟨_, rfl, by decide⟩)⟩, ⟨fun h => absurd h.1 (by decide), _, rfl, ?_⟩,
    ⟨fun h => absurd h.1 (by decide), _, rfl, ?_⟩, ⟨_, rfl, ?_⟩, ⟨_, rfl, ?_⟩, ⟨_, rfl, ?_⟩⟩ <;>
    (rintro ⟨v, h1, h2⟩; revert h2; cases h1 <;> decide)

/-- A value all forms below run on: the step's outcome is a next state. -/
def runs (i : Instr) (s : State) : Bool := match exec i s with | .next _ => true | _ => false

theorem runs_iff {i : Instr} {s : State} : runs i s = true ↔ ∃ t, exec i s = .next t := by
  unfold runs; cases exec i s <;> simp

theorem witness_ExtensionLastsOneInstruction :
    runs (.exti 5) base = true ∧ runs (.add 1 1 2) (ext 5 base) = true := by decide

theorem witness_PcAdvancesUnlessJump :
    runs (.movi 1 2) base = true ∧ familyOf (.movi 1 2) ≠ .jump ∧ familyOf (.movi 1 2) ≠ .link := by decide

theorem witness_OnlyWindowInstructionsChangeW :
    runs (.j 2) base = true ∧ familyOf (.j 2) ≠ .window := by decide

theorem witness_FlagWritersAreTheTable :
    (runs (.ld 1 2 0) base = true ∧ familyOf (.ld 1 2 0) = .load) ∧
    (runs (.and 1 1 2) base = true ∧ familyOf (.and 1 1 2) = .logic) ∧
    (runs (.sll 1 3 4) base = true ∧ familyOf (.sll 1 3 4) = .shift) := by decide

theorem witness_BusCyclesAreOnePerBusInstruction :
    (runs (.ldxa 1 0x80) base = true ∧ familyOf (.ldxa 1 0x80) = .busLoad) ∧
    (runs (.stx 1 2 3) base = true ∧ familyOf (.stx 1 2 3) = .busStore) ∧
    (runs (.st 1 2 3) base = true ∧ familyOf (.st 1 2 3) = .store) := by decide

theorem witness_EveryInstructionWritesAtMostOneWord :
    (runs (.st 1 2 0) base = true ∧ writtenAddress base (.st 1 2 0) = some 0x1003) ∧
    (runs (.ldw 6 0b11000) base = true ∧ writtenAddress base (.ldw 6 0b11000) = some 0x0FFE) ∧
    (runs (.xchw 7 1) base = true ∧ writtenAddress base (.xchw 7 1) = some 0x000F) ∧
    (runs (.cmp 1 2) base = true ∧ writtenAddress base (.cmp 1 2) = none) := by decide

theorem witness_EveryInstructionDrawsAnew : runs (.exti 5) base = true := by decide

theorem witness_EveryStepKeepsTheInvariant :
    (State.withFetchWord base 16 0xC005).Inv ∧
    pcOf (step (State.withFetchWord base 16 0xC005)) = some 0x0101 := by
  exact ⟨⟨by decide, by decide, by decide⟩, by decide⟩

theorem witness_CanonicalMemoryIsWhatItReads :
    Memory.wf [(0, 7), (65535, 9)] = true ∧ ∀ a : Word,
      Memory.lookup [(0, 7), (65535, 9)] a.toNat = Memory.lookup [(0, 7), (65535, 9)] a.toNat :=
  ⟨by decide, fun _ => rfl⟩

-- AddiAndAdciAddImmediates, SubiAndSbbiSubtractImmediates, CmpiSetsTheFlagsOnly, LogicOnImmediates: short form on both
-- sides of the "TBD" row, and long form on it; their RowThree: short form
theorem witness_AluImmediates :
    AluFieldOk base 2#3 ∧ AluFieldOk base 4#3 ∧ AluFieldOk (ext 5 base) 3#3 ∧ base.hasExt13 = false :=
  ⟨.inr (by decide), .inr (by decide), .inl rfl, rfl⟩

theorem witness_AddThenAdcAddsTwoWords :
    base.reg 1 = .defined 0x0008 ∧ base.reg 2 = .defined 0x1003 ∧ base.reg 3 = .defined 0x8000 ∧
    base.reg 4 = .defined 0x000F ∧ (0 : RegNum) ≠ 2 ∧ (0 : RegNum) ≠ 4 ∧ (0 : RegNum) ≠ 1 := by decide

theorem witness_SubThenSbbSubtractsTwoWords :
    base.reg 1 = .defined 0x0008 ∧ base.reg 2 = .defined 0x1003 ∧ base.reg 3 = .defined 0x8000 ∧
    base.reg 4 = .defined 0x000F ∧ (5 : RegNum) ≠ 2 ∧ (5 : RegNum) ≠ 4 ∧ (5 : RegNum) ≠ 1 := by decide

-- amounts 0 and 15 run, 16 stops
theorem witness_ShiftsByRegister :
    let s := mk 0 0x1000 [(1, 0), (2, 15), (3, 16)] []
    (s.reg 1 = .defined 0 ∧ (0 : Word).toNat ≤ 15) ∧ (s.reg 2 = .defined 15 ∧ (15 : Word).toNat ≤ 15) ∧
    (s.reg 3 = .defined 16 ∧ 15 < (16 : Word).toNat) := by decide

-- short form 0 stands for 8; long form 0 and 15 run, 16 stops, and so does an UNDEFINED ext13
theorem witness_ShiftsByImmediate :
    shiftValue base 0#3 = .defined 8 ∧ shiftValue base 7#3 = .defined 7 ∧
    shiftValue (ext 0 base) 0#3 = .defined 0 ∧ shiftValue (ext 1 base) 7#3 = .defined 15 ∧
    ¬ Surely (shiftValue (ext 2 base) 0#3) (· ≤ 15) := by
  refine ⟨rfl, rfl, rfl, rfl, ?_⟩
  rintro ⟨v, h1, h2⟩
  revert h2; cases h1; decide

-- ADJW and LDW: 8 and -16 in short form and a long form run; a long-form field of 8 and a short-form 7 stop
theorem witness_AdjwAndLdwMoveTheWindow :
    (Field5Ok base 0b01000#5 ∧ value5 base 0b01000#5 = .defined 8 ∧ (8 : Word).toNat % 8 = 0) ∧
    (Field5Ok base 0b10000#5 ∧ value5 base 0b10000#5 = .defined 0xFFF0 ∧ (0xFFF0 : Word).toNat % 8 = 0) ∧
    (Field5Ok (ext 1 base) 0#5 ∧ value5 (ext 1 base) 0#5 = .defined 8) ∧
    ¬ Field5Ok (ext 1 base) 0b01000#5 ∧
    (Field5Ok base 7#5 ∧ value5 base 7#5 = .defined 7 ∧ (7 : Word).toNat % 8 ≠ 0) := by
  unfold Field5Ok; decide

theorem witness_StwAndXchwLoadTheWindow :
    (base.reg 1 = .defined 8 ∧ (8 : Word).toNat % 8 = 0) ∧
    (base.reg 2 = .defined 0x1003 ∧ (0x1003 : Word).toNat % 8 ≠ 0) := by decide

theorem witness_StwUndoesLdw :
    base.w.toNat % 8 = 0 ∧ Field5Ok base 0b11000#5 ∧ value5 base 0b11000#5 = .defined 0xFFF8 ∧
    (0xFFF8 : Word).toNat % 8 = 0 := by unfold Field5Ok; decide

theorem witness_XchwTwiceReturns :
    base.w.toNat % 8 = 0 ∧ base.reg 3 = .defined 0x8000 ∧ (0x8000 : Word).toNat % 8 = 0 := by decide

theorem witness_AlignedWindowDoesNotWrap : State.reset.w.toNat % 8 = 0 := by decide

-- LoadsFromMemory, StoresToMemory, BusLoadsWriteTheAnswer, BusStoresDriveTheBus, JrJumpsToTheRegister,
-- TableJumpsAddTheEntryToTheTable: the long-form restriction of off5 on both sides of its bound, and short form
theorem witness_Field5Ok :
    Field5Ok (ext 5 base) 7#5 ∧ ¬ Field5Ok (ext 5 base) 8#5 ∧ Field5Ok base 0x1F#5 := by
  unfold Field5Ok; decide

-- the same for off8 and imm8: MoviLoadsAConstant, MovrLoadsAnAddress, BusLoadsWriteTheAnswer, BusStoresDriveTheBus,
-- CallsLeaveTheReturnAddress, CallThenReturn and the conditional jumps
theorem witness_Field8Ok :
    Field8Ok (ext 5 base) 7#8 ∧ ¬ Field8Ok (ext 5 base) 8#8 ∧ Field8Ok base 0xFF#8 := by
  unfold Field8Ok; decide

-- StoresToMemory, BusLoadsWriteTheAnswer, BusStoresDriveTheBus: defined addresses and data
theorem witness_LoadsAndStores :
    addWords (base.reg 2) (value5 base 0x1F#5) = .defined 0x1002 ∧
    addWords (addWords (pcPlus base 1) (value5 base 2#5)) (base.reg 1) = .defined 0x010B ∧
    value8 base 0x80#8 = .defined 0xFF80 ∧ base.reg 1 = .defined 8 := by decide

theorem witness_LoadsAndStoresReachTheWindow :
    Field5Ok base 0#5 ∧ addWords (base.reg 2) (value5 base 0#5) = .defined (base.regAddr 3) := by
  unfold Field5Ok; decide

theorem witness_StoreIsSeenByTheNextFetch :
    let s := mk 0x0100 0x1000 [(1, 0x8405), (2, 0x0101), (3, 0x0000)] []
    Field5Ok s 0#5 ∧ pcPlus s 1 = .defined 0x0101 ∧ addWords (s.reg 2) (value5 s 0#5) = .defined 0x0101 ∧
    addWords (addWords (pcPlus s 1) (value5 s 0#5)) (s.reg 3) = .defined 0x0101 ∧ s.reg 1 = .defined 0x8405 ∧
    decode 0x8405 = .ok (.movi 4 5) := by unfold Field5Ok; decide

-- JumpsOnOneFlag, JumpsOnSignedComparisons, JumpsOnUnsignedComparisons, JumpAlwaysAndNever: a condition that holds, one
-- that does not, and one that reads an UNDEFINED flag
theorem witness_Conditional :
    Field8Ok base 3#8 ∧ base.flagC = .defined true ∧ base.flagZ = .defined false ∧
    State.reset.flagC = .undefined ∧ value8 base 3#8 = .defined 3 := by unfold Field8Ok; decide

-- each relation that the statement decides holds of one of these pairs and fails of another
theorem witness_CompareThenBranchDecidesTheRelation :
    base.reg 3 = .defined 0x8000 ∧ base.reg 1 = .defined 8 ∧ base.reg 6 = base.reg 1 ∧
    (8 : Word).toNat < (0x8000 : Word).toNat ∧ (0x8000 : Word).toInt < (8 : Word).toInt := by decide

-- CallsLeaveTheReturnAddress (JRAL) and JrJumpsToTheRegister
theorem witness_CallsAndJumpsToRegisters :
    base.reg 2 = .defined 0x1003 ∧ addWords (base.reg 2) (value5 base 0x1F#5) = .defined 0x1002 := by decide

theorem witness_TableJumpsAddTheEntryToTheTable :
    let s := mk 0x0010 0x1000 [(1, 0x0002), (2, 0x0011)] [(0x0013, 0x0007)]
    addWords (pcPlus s 1) (value5 s 0#5) = .defined 0x0011 ∧
    wordAt s (addWords (.defined 0x0011) (s.reg 1)) = .defined 0x0007 ∧
    s.reg 2 = .defined 0x0011 ∧ wordAt s (addWords (.defined 0x0011) (value5 s 2#5)) = .defined 0x0007 := by
  decide

theorem witness_CallThenReturn : Field8Ok (ext 5 base) 7#8 := by unfold Field8Ok; decide

theorem witness_HaltedStateStaysHalted : (State.withFetchWord base 16 0xBFFF).halted = true := by decide

theorem witness_MovCopiesARegister : (1 : RegNum) = 1 ∧ (1 : RegNum) ≠ 2 := by decide

theorem witness_XchgExchangesTwoRegisters :
    (1 : RegNum) ≠ 2 ∧ base.reg 1 = .defined 8 ∧ base.reg 2 = .defined 0x1003 := by decide

-- the amounts on both sides of the bound between two words and one
theorem witness_RoriRotatesRight :
    base.hasExt13 = false ∧ (Pseudo.rori 1 2 7).expand.length = 2 ∧ (Pseudo.rori 1 2 8).expand.length = 1 := by decide

-- an operand in reach of the short form and one out of it; an amount that SLLI takes
theorem witness_AssembledOperandsAreReached :
    base.hasExt13 = false ∧ base.pc = .defined 0x0100 ∧ (15 : Word).toNat ≤ 15 ∧
    (assemble8 (.movi 0) 0x007F).length = 1 ∧ (assemble8 (.movi 0) 0x0080).length = 2 := by decide

-- 30_encoding.md R94: MOVI R0, 0x1234 needs EXTI 0x1234[15:3] and the field 0x1234[2:0]; the label of the next word is 0
theorem test_assembly :
    assemble8 (.movi 0) 0x1234 = [.exti 0x0246, .movi 0 4] ∧ assemble8 (.movi 0) 0xFFFF = [.movi 0 0xFF] ∧
    labelOffset 0x0100 0x0101 = 0 := by decide

end Sys2Proof.Tests
end

section
/-! PROOF. Nothing is refused (60_exceptions.md R262): a meaning answers a next state at once, or after the restriction
of its one operand, or after that and the one of a value for W. None of the three shapes answers a refusal, and a
step adds nothing but the fault of a word that is no instruction. -/

namespace Sys2Proof.Machine

/-! ## The step through its decoder -/

theorem step_of_decode_ok {s : State} {i : Instr} (h : decode s.fetch = .ok i) : step s = exec i s := by
  simp only [step, h]

theorem step_of_decode_error {s : State} (h : ∀ i : Instr, decode s.fetch ≠ .ok i) :
    step s = .fault .encodingNotPresent := by
  cases hd : decode s.fetch with
  | ok i => exact absurd hd (h i)
  | error e => simp only [step, hd]

/-! ## The shapes of a meaning -/

theorem next_ne_refused (t : State) (r : Refusal) : (.next t : Result) ≠ .refused r := nofun

/-- A restriction adds a fault only. -/
theorem withOperand_ne_refused {α : Type} {o : Except Fault α} {k : α → Result} {r : Refusal}
    (h : ∀ a, k a ≠ .refused r) : withOperand o k ≠ .refused r := by
  intro hr
  obtain ⟨a, -, ha⟩ := withOperand_eq_refused.1 hr
  exact h a ha

theorem withOperand_next_ne_refused {α : Type} (o : Except Fault α) (f : α → State) (r : Refusal) :
    withOperand o (fun a => .next (f a)) ≠ .refused r :=
  withOperand_ne_refused fun a => next_ne_refused (f a) r

/-! ## Every instruction -/

theorem exec_ne_refused (i : Instr) (s : State) (r : Refusal) : exec i s ≠ .refused r := by
  cases i with
  -- no restriction
  | and | or | xor | cmp | add | adc | sub | sbb | jral | exti => exact next_ne_refused _ r
  -- an immediate of the ALU (R110), a shift amount (R220), a value for W out of a register (R140)
  | andi | ori | xori | cmpi | addi | adci | subi | sbbi
  | sll | rol | srl | sra | slli | roli | srli | srai
  | stw | xchw => exact withOperand_next_ne_refused _ _ r
  -- an imm5, off5, imm8 or off8 field (R87)
  | ld | ldr | st | str | ldx | ldxa | stx | stxa | movi | movr
  | jr | jvt | jst | jal | j | jn
  | jnz | jne | jns | jnc | jult | jno | jugt | jsge | jsgt
  | jz | je | js | jc | juge | jo | jule | jslt | jsle => exact withOperand_next_ne_refused _ _ r
  -- an imm5 field (R87), then the value it gives for W (R140)
  | adjw | ldw => exact withOperand_ne_refused fun _ => withOperand_next_ne_refused _ _ r

theorem step_ne_refused (s : State) (r : Refusal) : step s ≠ .refused r := by
  by_cases h : ∃ i, decode s.fetch = .ok i
  · obtain ⟨i, hi⟩ := h
    rw [step_of_decode_ok hi]
    exact exec_ne_refused i s r
  · rw [step_of_decode_error fun i hi => h ⟨i, hi⟩]
    nofun

/-- Settles O7: every meaning has one of the three shapes, and a step is a meaning or a fault. -/
theorem nothingIsRefused : Obligations.NothingIsRefused :=
  fun s r => ⟨step_ne_refused s r, fun i => exec_ne_refused i s r⟩

end Sys2Proof.Machine
end

section
/-! PROOF. The state through one instruction and one step (10_state.md). `Completion` lists the ends an instruction of a
family can have and the word of `mem` each end writes; `exec_completion` shows for every instruction that it completes
in one of them. Each statement about all instructions is then a case split over the ends. -/

namespace Sys2Proof.Machine

open Sys2Proof.Claims

/-! ## The ends of instructions -/

/-- `t` is an end that an instruction of the family can have when it runs from `s`, and `written` is the address of
the word of `mem` it writes there (R34). The ends of the window instructions keep W a multiple of 8 (R27, R140). -/
inductive Completion (s : State) : Family → Option Word → State → Prop
  | arith (rd : RegNum) (o : Content AluOut) :
      Completion s .arith (some (s.regAddr rd)) (s.finishArith rd o)
  | compare (o : Content AluOut) : Completion s .compare none (s.setArithFlags o).advance
  | logic (rd : RegNum) (res : Content Word) :
      Completion s .logic (some (s.regAddr rd)) (s.finishLogic rd res)
  | shift (rd : RegNum) (res : Content Word) :
      Completion s .shift (some (s.regAddr rd)) (s.finishLogic rd res)
  | load (rd : RegNum) (addr : Content Word) :
      Completion s .load (some (s.regAddr rd)) (s.finishLoad rd addr)
  | store (rs : RegNum) (addr : Content Word) :
      Completion s .store (some (s.resolve .address addr)) (s.finishStore rs addr)
  | busLoad (rd : RegNum) (addr : Content Word) :
      Completion s .busLoad (some (s.regAddr rd)) (s.finishExtLoad rd addr)
  | busStore (rs : RegNum) (addr : Content Word) :
      Completion s .busStore none (s.finishExtStore rs addr)
  | move (rd : RegNum) (v : Content Word) :
      Completion s .move (some (s.regAddr rd)) (s.setReg rd v).advance
  | setWindow (w : Word) (hw : s.w.toNat % 8 = 0 → w.toNat % 8 = 0) :
      Completion s .window none (s.setWindow w).advance
  | exchangeWindow (w : Word) (rd : RegNum) (hw : s.w.toNat % 8 = 0 → w.toNat % 8 = 0) :
      Completion s .window (some ((s.setWindow w).regAddr rd)) (s.exchangeWindow w rd).advance
  | jump (target : Content Word) : Completion s .jump none (s.jump target)
  | link (rd : RegNum) (target : Content Word) :
      Completion s .link (some (s.regAddr rd)) ((s.link rd).jump target)
  | exti (e : BitVec 13) : Completion s .exti none (s.extend e)

/-! ## Operands of completed instructions -/

/-- A meaning with one operand completes with it. -/
theorem withOperand_next {α : Type} {o : Except Fault α} {f : α → State} {t : State}
    (h : withOperand o (fun a => .next (f a)) = .next t) : ∃ a, o = .ok a ∧ f a = t := by
  obtain ⟨a, ha, hf⟩ := withOperand_eq_next.1 h
  exact ⟨a, ha, Host.Outcome.next.inj hf⟩

/-- The operand of imm5 and off5 is the value of the field wherever there is one (R86, R87). -/
theorem State.eq_value5_of_operand5 {s : State} {f : BitVec 5} {v : Content Word}
    (h : s.operand5 f = .ok v) : v = value5 s f := by
  by_cases hf : Field5Ok s f
  · rw [State.operand5_ok hf] at h
    exact (Except.ok.inj h).symm
  · rw [State.operand5_bad hf] at h
    exact nomatch h

/-- A multiple of 8 moves an aligned W to an aligned one (R27). -/
theorem add_aligned {w d : Word} (hd : d.toNat % 8 = 0) (hw : w.toNat % 8 = 0) :
    (w + d).toNat % 8 = 0 := by
  rw [BitVec.toNat_add]
  omega

/-- The amount of ADJW and LDW, where they complete: the field's value, a defined multiple of 8 (R140). -/
theorem withOperand_windowAmount {s t : State} {imm5 : BitVec 5} {f : Word → State}
    (h : withOperand (s.operand5 imm5) (fun imm => withOperand (windowValue imm) fun d => .next (f d)) =
      .next t) :
    ∃ d : Word, value5 s imm5 = .defined d ∧ d.toNat % 8 = 0 ∧ f d = t := by
  obtain ⟨imm, himm, hk⟩ := withOperand_eq_next.1 h
  obtain ⟨d, hd, ht⟩ := withOperand_next hk
  obtain ⟨hdef, h8⟩ := windowValue_eq_ok.1 hd
  exact ⟨d, by rw [← State.eq_value5_of_operand5 himm, hdef], h8, ht⟩

/-! ## Every instruction -/

theorem completion_of_condJump {c : Content Bool} {off8 : BitVec 8} {s t : State}
    (h : condJump c off8 s = .next t) : Completion s .jump none t := by
  obtain ⟨off, -, rfl⟩ := withOperand_next h
  rcases s.branch_cases c off with ⟨-, hb⟩ | ⟨-, hb⟩ <;> rw [hb] <;> exact .jump _

/-- An instruction that completes has an end of its family and writes the word at its written address. -/
theorem exec_completion {i : Instr} {s t : State} (h : exec i s = .next t) :
    Completion s (familyOf i) (writtenAddress s i) t := by
  cases i with
  | add | adc | sub | sbb =>
    obtain rfl := Host.Outcome.next.inj h
    exact .arith _ _
  | addi | adci | subi | sbbi =>
    obtain ⟨opB, -, rfl⟩ := withOperand_next h
    exact .arith _ _
  | cmp =>
    obtain rfl := Host.Outcome.next.inj h
    exact .compare _
  | cmpi =>
    obtain ⟨opB, -, rfl⟩ := withOperand_next h
    exact .compare _
  | and | or | xor =>
    obtain rfl := Host.Outcome.next.inj h
    exact .logic _ _
  | andi | ori | xori =>
    obtain ⟨opB, -, rfl⟩ := withOperand_next h
    exact .logic _ _
  | sll | rol | srl | sra | slli | roli | srli | srai =>
    obtain ⟨n, -, rfl⟩ := withOperand_next h
    exact .shift _ _
  | ld | ldr =>
    obtain ⟨off, -, rfl⟩ := withOperand_next h
    exact .load _ _
  | st | str =>
    obtain ⟨off, hoff, rfl⟩ := withOperand_next h
    rw [State.eq_value5_of_operand5 hoff]
    exact .store _ _
  | ldx | ldxa =>
    obtain ⟨off, -, rfl⟩ := withOperand_next h
    exact .busLoad _ _
  | stx | stxa =>
    obtain ⟨off, -, rfl⟩ := withOperand_next h
    exact .busStore _ _
  | movi | movr =>
    obtain ⟨imm, -, rfl⟩ := withOperand_next h
    exact .move _ _
  | stw =>
    obtain ⟨v, hv, rfl⟩ := withOperand_next h
    exact .setWindow v fun _ => (windowValue_eq_ok.1 hv).2
  | xchw rd rb =>
    obtain ⟨v, hv, rfl⟩ := withOperand_next h
    obtain ⟨hrb, h8⟩ := windowValue_eq_ok.1 hv
    simp only [writtenAddress, hrb]
    exact .exchangeWindow v rd fun _ => h8
  | adjw =>
    obtain ⟨d, -, h8, rfl⟩ := withOperand_windowAmount h
    exact .setWindow _ (add_aligned h8)
  | ldw rd imm5 =>
    obtain ⟨d, hd, h8, rfl⟩ := withOperand_windowAmount h
    simp only [writtenAddress, hd]
    exact .exchangeWindow _ rd (add_aligned h8)
  | jr | jvt | jst | j | jn =>
    obtain ⟨off, -, rfl⟩ := withOperand_next h
    exact .jump _
  | jnz | jne | jns | jnc | jult | jno | jugt | jsge | jsgt
  | jz | je | js | jc | juge | jo | jule | jslt | jsle => exact completion_of_condJump h
  | jral =>
    obtain rfl := Host.Outcome.next.inj h
    exact .link _ _
  | jal =>
    obtain ⟨off, -, rfl⟩ := withOperand_next h
    exact .link _ _
  | exti =>
    obtain rfl := Host.Outcome.next.inj h
    exact .exti _

/-! ## What each end does to the state -/

namespace Completion

variable {s t : State} {fam : Family} {a : Word} {written : Option Word}

/-- R33. -/
theorem extCleared (h : Completion s fam written t) (hf : fam ≠ .exti) : ExtCleared t := by
  cases h with
  | exti => exact absurd rfl hf
  | _ => exact ⟨rfl, rfl⟩

/-- R22. -/
theorem pc_eq (h : Completion s fam written t) (hj : fam ≠ .jump) (hl : fam ≠ .link) :
    t.pc = pcPlus s 1 := by
  cases h with
  | jump => exact absurd rfl hj
  | link => exact absurd rfl hl
  | _ => exact s.nextPc_eq

/-- R25. -/
theorem w_eq (h : Completion s fam written t) (hf : fam ≠ .window) : t.w = s.w := by
  cases h with
  | setWindow | exchangeWindow => exact absurd rfl hf
  | _ => rfl

/-- R34. -/
theorem sameFlags (h : Completion s fam written t) (ha : fam ≠ .arith) (hc : fam ≠ .compare)
    (hl : fam ≠ .logic) (hs : fam ≠ .shift) : SameFlags s t := by
  cases h with
  | arith => exact absurd rfl ha
  | compare => exact absurd rfl hc
  | logic => exact absurd rfl hl
  | shift => exact absurd rfl hs
  | _ => exact ⟨rfl, rfl, rfl, rfl⟩

/-- R30. -/
theorem flagC_flagV_undefined (h : Completion s fam written t) (hf : fam = .logic ∨ fam = .shift) :
    t.flagC = .undefined ∧ t.flagV = .undefined := by
  rcases hf with rfl | rfl <;> cases h <;> exact ⟨rfl, rfl⟩

/-- R34: an end that writes a word leaves every other one. -/
theorem sameMemoryExcept (h : Completion s fam (some a) t) : SameMemoryExcept s t a := by
  cases h with
  | arith rd o =>
    obtain ⟨-, -, hmem, -⟩ := s.finishArith_frame rd o
    exact hmem
  | logic rd res | shift rd res =>
    obtain ⟨-, ⟨-, hmem, -⟩, -⟩ := s.finishLogic_frame rd res
    exact hmem
  | load rd addr =>
    obtain ⟨-, hmem, -⟩ := s.setReg_advance rd (s.memReadAt addr)
    exact hmem
  | move rd v =>
    obtain ⟨-, hmem, -⟩ := s.setReg_advance rd v
    exact hmem
  | store rs addr => exact (s.finishStore_frame rs addr).2
  | busLoad rd addr =>
    obtain ⟨-, -, hmem⟩ := s.finishExtLoad_frame rd addr
    exact hmem
  | exchangeWindow w rd =>
    obtain ⟨-, hmem⟩ := s.exchangeWindow_frame w rd
    rw [State.regAddr_eq]
    exact hmem
  | link rd =>
    intro b hb
    exact (s.memRead_setReg rd b s.nextPc).trans (if_neg hb)

/-- R34: an end that writes no word leaves all of them. -/
theorem sameMemory (h : Completion s fam none t) : SameMemory s t := by
  cases h <;> exact fun _ => rfl

/-- Every end keeps the canonical form of memory: it writes no word, or one. -/
theorem mem_wf (h : Completion s fam written t) (hm : s.mem.wf = true) : t.mem.wf = true := by
  cases h with
  | arith rd o => exact s.setReg_wf rd _ hm
  | logic rd res | shift rd res => exact s.setReg_wf rd res hm
  | load rd addr => exact s.setReg_wf rd _ hm
  | move rd v => exact s.setReg_wf rd v hm
  | link rd => exact s.setReg_wf rd _ hm
  | store rs addr => exact s.memWrite_wf _ _ hm
  | busLoad rd addr => exact (s.recordExtRead _).setReg_wf rd _ hm
  | exchangeWindow w rd => exact (s.setWindow w).setReg_wf rd (.defined s.w) hm
  | compare | busStore | setWindow | jump | exti => exact hm

/-- R27: every end keeps W a multiple of 8. -/
theorem w_aligned (h : Completion s fam written t) (hw : s.w.toNat % 8 = 0) : t.w.toNat % 8 = 0 := by
  cases h with
  | setWindow w hnew | exchangeWindow w rd hnew => exact hnew hw
  | _ => exact hw

/-- R33: after every end ext13 is defined exactly while has_ext13 = 1, EXTI's among them. -/
theorem ext13_isDefined (h : Completion s fam written t) : t.ext13.isDefined = t.hasExt13 := by
  cases h <;> rfl

theorem inv (h : Completion s fam written t) (hs : s.Inv) : t.Inv :=
  ⟨h.mem_wf hs.memory, h.w_aligned hs.window, h.ext13_isDefined⟩

end Completion

/-! ## One step -/

/-- A step that goes on is the meaning of some instruction. -/
theorem step_eq_next {s t : State} (h : step s = .next t) :
    ∃ i, decode s.fetch = .ok i ∧ exec i s = .next t := by
  by_cases hd : ∃ i, decode s.fetch = .ok i
  · obtain ⟨i, hi⟩ := hd
    exact ⟨i, hi, step_of_decode_ok hi ▸ h⟩
  · rw [step_of_decode_error fun i hi => hd ⟨i, hi⟩] at h
    exact nomatch h

theorem familyOf_eq_exti {i : Instr} (h : familyOf i = .exti) : ∃ e, i = .exti e := by
  cases i with
  | exti e => exact ⟨e, rfl⟩
  | _ => exact nomatch h

/-! ## The statements -/

/-- Settles O18: a step that goes on ends as its instruction's family does, and every end keeps the invariant. -/
theorem everyStepKeepsTheInvariant : Obligations.EveryStepKeepsTheInvariant := by
  intro s t hs h
  obtain ⟨i, -, hi⟩ := step_eq_next h
  exact (exec_completion hi).inv hs

/-- Settles O9: EXTI by its meaning, every other instruction by the epilogue all other ends share. -/
theorem extensionLastsOneInstruction : Obligations.ExtensionLastsOneInstruction := by
  intro i s t h
  constructor
  · rintro e rfl
    obtain rfl := Host.Outcome.next.inj h
    exact ⟨rfl, rfl⟩
  · intro hi
    refine (exec_completion h).extCleared fun hf => ?_
    obtain ⟨e, he⟩ := familyOf_eq_exti hf
    exact hi e he

/-- Settles O10: every end but a jump's and a link's advances PC. -/
theorem pcAdvancesUnlessJump : Obligations.PcAdvancesUnlessJump :=
  fun _ _ _ h => (exec_completion h).pc_eq

/-- Settles O11: only the two ends of the window family set W. -/
theorem onlyWindowInstructionsChangeW : Obligations.OnlyWindowInstructionsChangeW :=
  fun _ _ _ h => (exec_completion h).w_eq

/-- Settles O12: four ends write the flags, and those of logic and shift make C and V UNDEFINED. -/
theorem flagWritersAreTheTable : Obligations.FlagWritersAreTheTable :=
  fun _ _ _ h => ⟨(exec_completion h).sameFlags, (exec_completion h).flagC_flagV_undefined⟩

/-- Settles O14: an end writes the word at the address it carries, or none. -/
theorem everyInstructionWritesAtMostOneWord : Obligations.EveryInstructionWritesAtMostOneWord := by
  intro i s t h
  have hc := exec_completion h
  constructor
  · intro a ha
    rw [ha] at hc
    exact hc.sameMemoryExcept
  · intro hn
    rw [hn] at hc
    exact hc.sameMemory

end Sys2Proof.Machine
end

section
/-! PROOF. The decoder and the encoder are inverse to one another (30_encoding.md, formats and opcode map). The fields
of a format read back out of its word, so the decoder undoes the encoder opcode by opcode; and a word is the word of
its own fields, so the encoder undoes the decoder. The four second names of R90 are the only instructions the round
trip renames. -/

namespace Sys2Proof

open BitVec (extractLsb'_append_extractLsb'_eq_extractLsb' extractLsb'_eq_self)
open Sys2Proof.Claims

/-! ## The decoder on the words of a format -/

theorem decode_formatR_logic (rd ra : RegNum) (ty : BitVec 2) (rb : RegNum) :
    decode (formatR 0b00000#5 rd ra ty rb) = decodeLogic ty rd ra rb := by
  simp [decode, formatR_fields]

theorem decode_formatR_logicImm (rd ra : RegNum) (ty : BitVec 2) (imm3 : BitVec 3) :
    decode (formatR 0b00001#5 rd ra ty imm3) = decodeLogicImm ty rd ra imm3 := by
  simp [decode, formatR_fields]

theorem decode_formatR_arith (rd ra : RegNum) (ty : BitVec 2) (rb : RegNum) :
    decode (formatR 0b00010#5 rd ra ty rb) = .ok (decodeArith ty rd ra rb) := by
  simp [decode, formatR_fields]

theorem decode_formatR_arithImm (rd ra : RegNum) (ty : BitVec 2) (imm3 : BitVec 3) :
    decode (formatR 0b00011#5 rd ra ty imm3) = .ok (decodeArithImm ty rd ra imm3) := by
  simp [decode, formatR_fields]

theorem decode_formatR_shift (rd ra : RegNum) (ty : BitVec 2) (rb : RegNum) :
    decode (formatR 0b00100#5 rd ra ty rb) = .ok (decodeShift ty rd ra rb) := by
  simp [decode, formatR_fields]

theorem decode_formatR_shiftImm (rd ra : RegNum) (ty : BitVec 2) (imm3 : BitVec 3) :
    decode (formatR 0b00101#5 rd ra ty imm3) = .ok (decodeShiftImm ty rd ra imm3) := by
  simp [decode, formatR_fields]

theorem decode_formatM_window (sub : BitVec 3) (rsd : RegNum) (low : BitVec 5) :
    decode (formatM 0b10100#5 rsd sub low) = decodeWindow sub rsd low := by
  simp [decode, formatM_fields]

/-- Bit 3 of `cond` is the low bit of the major opcode, so the jumps hold two of them (R82). -/
theorem decode_formatC (cond : BitVec 4) (off8 : BitVec 8) :
    decode (formatC cond off8) = .ok (decodeJump cond off8) := by
  have hop : (0b1011#4 ++ cond.extractLsb' 3 1 : BitVec 5).toNat = 22 ∨
      (0b1011#4 ++ cond.extractLsb' 3 1 : BitVec 5).toNat = 23 := by revert cond; decide
  obtain ⟨hmajor, hcond, hoff⟩ := formatC_fields cond off8
  rcases hop with hop | hop <;> simp only [decode, hmajor, hcond, hoff, hop]

/-- The top two bits of `imm13` are the low bits of the major opcode, so EXTI holds four of them (R82). -/
theorem decode_formatX (imm13 : BitVec 13) : decode (formatX imm13) = .ok (.exti imm13) := by
  have hop : ∀ top : BitVec 2, (0b110#3 ++ top : BitVec 5).toNat = 24 ∨ (0b110#3 ++ top : BitVec 5).toNat = 25 ∨
      (0b110#3 ++ top : BitVec 5).toNat = 26 ∨ (0b110#3 ++ top : BitVec 5).toNat = 27 := by decide
  obtain ⟨hmajor, himm⟩ := formatX_fields imm13
  rcases hop (imm13.extractLsb' 11 2) with hop | hop | hop | hop <;> simp only [decode, hmajor, himm, hop]

/-! ## Decoding what was encoded -/

theorem decode_encode (i : Instr) : decode (encode i) = .ok i.canonical := by
  cases i with
  | and | or | xor | cmp => exact decode_formatR_logic _ _ _ _
  | andi | ori | xori | cmpi => exact decode_formatR_logicImm _ _ _ _
  | add | adc | sub | sbb => exact decode_formatR_arith _ _ _ _
  | addi | adci | subi | sbbi => exact decode_formatR_arithImm _ _ _ _
  | sll | rol | srl | sra => exact decode_formatR_shift _ _ _ _
  | slli | roli | srli | srai => exact decode_formatR_shiftImm _ _ _ _
  | ld | ldr | st | str | ldx | stx => simp [decode, encode, formatM_fields, Instr.canonical]
  | ldxa | stxa | movi | movr | jal => simp [decode, encode, formatI8_fields, Instr.canonical]
  -- the constant bits 4:3 of these three are those of `plainLow`
  | stw | xchw | jral =>
    refine (decode_formatM_window _ _ _).trans ?_
    simp [decodeWindow, plainLow_fields, Instr.canonical]
  | adjw | ldw | jr | jvt | jst => exact decode_formatM_window _ _ _
  | jnz | jne | jns | jnc | jult | jno | jugt | jsge | jsgt | jn
  | jz | je | js | jc | juge | jo | jule | jslt | jsle | j => exact decode_formatC _ _
  | exti => exact decode_formatX _

/-- R90: the second names are the instructions the decoder renames. -/
theorem canonical_eq_self_iff (i : Instr) :
    i.canonical = i ↔ ∀ off8 : BitVec 8, i ≠ .jne off8 ∧ i ≠ .jult off8 ∧ i ≠ .je off8 ∧ i ≠ .juge off8 := by
  cases i with
  | jne off8 | jult off8 | je off8 | juge off8 =>
    exact iff_of_false nofun fun h => by simpa using h off8
  | _ => exact iff_of_true rfl fun _ => ⟨nofun, nofun, nofun, nofun⟩

/-- Settles O1: the round trip gives the canonical name, and four names are not canonical. -/
theorem encodeThenDecodeIsIdentity : Obligations.EncodeThenDecodeIsIdentity := by
  intro i
  refine ⟨decode_encode i, ?_⟩
  rw [decode_encode, Except.ok.injEq]
  exact canonical_eq_self_iff i

/-! ## A word is the word of its fields -/

theorem formatR_of_fields {w : Word} {op : BitVec 5} (h : (w.extractLsb' 11 5).toNat = op.toNat) :
    formatR op (w.extractLsb' 8 3) (w.extractLsb' 5 3) (w.extractLsb' 3 2) (w.extractLsb' 0 3) = w := by
  obtain rfl := BitVec.eq_of_toNat_eq h
  simp only [formatR, extractLsb'_append_extractLsb'_eq_extractLsb', extractLsb'_eq_self]

theorem formatM_of_fields {w : Word} {op : BitVec 5} (h : (w.extractLsb' 11 5).toNat = op.toNat) :
    formatM op (w.extractLsb' 8 3) (w.extractLsb' 5 3) (w.extractLsb' 0 5) = w := by
  obtain rfl := BitVec.eq_of_toNat_eq h
  simp only [formatM, extractLsb'_append_extractLsb'_eq_extractLsb', extractLsb'_eq_self]

theorem formatI8_of_fields {w : Word} {op : BitVec 5} (h : (w.extractLsb' 11 5).toNat = op.toNat) :
    formatI8 op (w.extractLsb' 8 3) (w.extractLsb' 0 8) = w := by
  obtain rfl := BitVec.eq_of_toNat_eq h
  simp only [formatI8, extractLsb'_append_extractLsb'_eq_extractLsb', extractLsb'_eq_self]

theorem formatC_of_fields {w : Word} (h : w.extractLsb' 12 4 = 0b1011#4) :
    formatC (w.extractLsb' 8 4) (w.extractLsb' 0 8) = w := by
  simp only [formatC, ← h, extractLsb'_append_extractLsb'_eq_extractLsb', extractLsb'_eq_self]

theorem formatX_of_fields {w : Word} (h : w.extractLsb' 13 3 = 0b110#3) : formatX (w.extractLsb' 0 13) = w := by
  simp only [formatX, ← h, extractLsb'_append_extractLsb'_eq_extractLsb', extractLsb'_eq_self]

theorem plainLow_of_fields {low : BitVec 5} (h : low.extractLsb' 3 2 = 0#2) :
    plainLow (low.extractLsb' 0 3) = low := by
  revert low; decide

/-- The top four bits of format C in the words of the two major opcodes it covers. -/
theorem top4_of_major {w : Word} (h : (w.extractLsb' 11 5).toNat = 22 ∨ (w.extractLsb' 11 5).toNat = 23) :
    w.extractLsb' 12 4 = 0b1011#4 := by
  rw [BitVec.extractLsb'_toNat, Nat.shiftRight_eq_div_pow] at h
  apply BitVec.eq_of_toNat_eq
  rw [BitVec.extractLsb'_toNat, Nat.shiftRight_eq_div_pow, BitVec.toNat_ofNat]
  omega

/-- The top three bits of format X in the words of the four major opcodes it covers. -/
theorem top3_of_major {w : Word} (h : 24 ≤ (w.extractLsb' 11 5).toNat ∧ (w.extractLsb' 11 5).toNat ≤ 27) :
    w.extractLsb' 13 3 = 0b110#3 := by
  rw [BitVec.extractLsb'_toNat, Nat.shiftRight_eq_div_pow] at h
  apply BitVec.eq_of_toNat_eq
  rw [BitVec.extractLsb'_toNat, Nat.shiftRight_eq_div_pow, BitVec.toNat_ofNat]
  omega

/-! ## Encoding what a part of the decoder answers -/

theorem type_cases (ty : BitVec 2) : ty = 0b00#2 ∨ ty = 0b01#2 ∨ ty = 0b10#2 ∨ ty = 0b11#2 := by
  revert ty; decide

theorem encode_decodeArith (ty : BitVec 2) (rd ra rb : RegNum) :
    encode (decodeArith ty rd ra rb) = formatR 0b00010#5 rd ra ty rb := by
  rcases type_cases ty with rfl | rfl | rfl | rfl <;> rfl

theorem encode_decodeArithImm (ty : BitVec 2) (rd ra : RegNum) (imm3 : BitVec 3) :
    encode (decodeArithImm ty rd ra imm3) = formatR 0b00011#5 rd ra ty imm3 := by
  rcases type_cases ty with rfl | rfl | rfl | rfl <;> rfl

theorem encode_decodeShift (ty : BitVec 2) (rd ra rb : RegNum) :
    encode (decodeShift ty rd ra rb) = formatR 0b00100#5 rd ra ty rb := by
  rcases type_cases ty with rfl | rfl | rfl | rfl <;> rfl

theorem encode_decodeShiftImm (ty : BitVec 2) (rd ra : RegNum) (imm3 : BitVec 3) :
    encode (decodeShiftImm ty rd ra imm3) = formatR 0b00101#5 rd ra ty imm3 := by
  rcases type_cases ty with rfl | rfl | rfl | rfl <;> rfl

/-- A check that passed: what the decoder's tests of constant bits (R88) tell about the fields. -/
theorem eq_of_ite_eq_ok {c : Prop} [Decidable c] {i j : Instr} {e : Reject}
    (h : (if c then .ok i else .error e : Except Reject Instr) = .ok j) : c ∧ i = j := by
  split at h
  · next hc => exact ⟨hc, Except.ok.inj h⟩
  · exact nomatch h

theorem encode_of_decodeLogic {ty : BitVec 2} {rd ra rb : RegNum} {i : Instr}
    (h : decodeLogic ty rd ra rb = .ok i) : encode i = formatR 0b00000#5 rd ra ty rb := by
  rcases type_cases ty with rfl | rfl | rfl | rfl
  case inr.inr.inr => obtain ⟨rfl, rfl⟩ := eq_of_ite_eq_ok h; rfl
  all_goals obtain rfl := Except.ok.inj h; rfl

theorem encode_of_decodeLogicImm {ty : BitVec 2} {rd ra : RegNum} {imm3 : BitVec 3} {i : Instr}
    (h : decodeLogicImm ty rd ra imm3 = .ok i) : encode i = formatR 0b00001#5 rd ra ty imm3 := by
  rcases type_cases ty with rfl | rfl | rfl | rfl
  case inr.inr.inr => obtain ⟨rfl, rfl⟩ := eq_of_ite_eq_ok h; rfl
  all_goals obtain rfl := Except.ok.inj h; rfl

theorem encode_of_decodeWindow {sub : BitVec 3} {rsd : RegNum} {low : BitVec 5} {i : Instr}
    (h : decodeWindow sub rsd low = .ok i) : encode i = formatM 0b10100#5 rsd sub low := by
  have hsub : sub = 0#3 ∨ sub = 1#3 ∨ sub = 2#3 ∨ sub = 3#3 ∨ sub = 4#3 ∨ sub = 5#3 ∨ sub = 6#3 ∨ sub = 7#3 := by
    clear h; revert sub; decide
  -- the plain tests say that the low field is `plainLow` of its register
  have hplain (hp : (low.extractLsb' 3 2 == 0#2) = true) : plainLow (low.extractLsb' 0 3) = low :=
    plainLow_of_fields (by simpa using hp)
  rcases hsub with rfl | rfl | rfl | rfl | rfl | rfl | rfl | rfl
  · obtain ⟨⟨rfl, hp⟩, rfl⟩ := eq_of_ite_eq_ok h
    exact congrArg (formatM 0b10100#5 0#3 0b000#3) (hplain hp)
  · obtain ⟨hp, rfl⟩ := eq_of_ite_eq_ok h
    exact congrArg (formatM 0b10100#5 rsd 0b001#3) (hplain hp)
  · obtain ⟨rfl, rfl⟩ := eq_of_ite_eq_ok h
    rfl
  · obtain rfl := Except.ok.inj h; rfl
  · obtain rfl := Except.ok.inj h; rfl
  · obtain ⟨hp, rfl⟩ := eq_of_ite_eq_ok h
    exact congrArg (formatM 0b10100#5 rsd 0b101#3) (hplain hp)
  · obtain rfl := Except.ok.inj h; rfl
  · obtain rfl := Except.ok.inj h; rfl

theorem encode_decodeJump (cond : BitVec 4) (off8 : BitVec 8) :
    encode (decodeJump cond off8) = formatC cond off8 := by
  obtain ⟨⟨n, hn⟩⟩ := cond
  interval_cases n <;> rfl

/-! ## Encoding what was decoded -/

theorem encode_of_decode {w : Word} {i : Instr} (h : decode w = .ok i) : encode i = w := by
  unfold decode at h
  dsimp only at h
  split at h
  -- the opcodes with a type field (R83)
  case h_1 hop => exact (encode_of_decodeLogic h).trans (formatR_of_fields hop)
  case h_2 hop => exact (encode_of_decodeLogicImm h).trans (formatR_of_fields hop)
  case h_3 hop =>
    obtain rfl := Except.ok.inj h
    exact (encode_decodeArith _ _ _ _).trans (formatR_of_fields hop)
  case h_4 hop =>
    obtain rfl := Except.ok.inj h
    exact (encode_decodeArithImm _ _ _ _).trans (formatR_of_fields hop)
  case h_5 hop =>
    obtain rfl := Except.ok.inj h
    exact (encode_decodeShift _ _ _ _).trans (formatR_of_fields hop)
  case h_6 hop =>
    obtain rfl := Except.ok.inj h
    exact (encode_decodeShiftImm _ _ _ _).trans (formatR_of_fields hop)
  -- LD, LDR, ST, STR, LDX and STX
  case h_7 hop | h_8 hop | h_9 hop | h_10 hop | h_11 hop | h_13 hop =>
    obtain rfl := Except.ok.inj h
    exact formatM_of_fields hop
  -- LDXA, STXA, MOVI, MOVR and JAL
  case h_12 hop | h_14 hop | h_15 hop | h_16 hop | h_18 hop =>
    obtain rfl := Except.ok.inj h
    exact formatI8_of_fields hop
  -- the window instructions and the jumps to registers (R84)
  case h_17 hop => exact (encode_of_decodeWindow h).trans (formatM_of_fields hop)
  -- the jumps of format C (R85)
  case h_19 hop | h_20 hop =>
    obtain rfl := Except.ok.inj h
    exact (encode_decodeJump _ _).trans (formatC_of_fields (top4_of_major (by simp [hop])))
  -- EXTI
  case h_21 hop | h_22 hop | h_23 hop | h_24 hop =>
    obtain rfl := Except.ok.inj h
    exact formatX_of_fields (top3_of_major (by simp [hop]))
  case h_25 => exact nomatch h

/-- A word decodes to a canonical name, because the decoder names it again after the encoder. -/
theorem canonical_of_decode {w : Word} {i : Instr} (h : decode w = .ok i) : i.canonical = i := by
  rw [← encode_of_decode h, decode_encode] at h
  exact Except.ok.inj h

/-- Settles O2: the word is rebuilt from its fields, and its name is the one the round trip gives. -/
theorem decodeThenEncodeIsIdentity : Obligations.DecodeThenEncodeIsIdentity :=
  fun _ _ h => ⟨encode_of_decode h, canonical_of_decode h⟩

/-- R92: the word of a canonical instruction is the only word that is that instruction. -/
theorem isWordOf_encode {i : Instr} (h : i.canonical = i) : IsWordOf (encode i) i := by
  intro x
  constructor
  · exact fun hx => (encode_of_decode hx).symm
  · rintro rfl
    rw [decode_encode, h]

/-! ## Examples and shared words -/

/-- Settles O4: each printed word is the encoder's word of its instruction, so it decodes to it. -/
theorem exampleWordsDecode : Obligations.ExampleWordsDecode :=
  ⟨decode_encode (.adc 1 3 5), decode_encode (.andi 1 1 4), decode_encode (.cmp 1 2), decode_encode (.srai 1 2 4),
    decode_encode (.st 1 2 0x1F), decode_encode (.stxa 0 0x7F), decode_encode (.xchw 7 7), decode_encode (.jr 3 2),
    decode_encode (.jz 0xFE), decode_encode (.exti 0x0246)⟩

/-- Settles O5: the second name of a pair has the word and the meaning of the first by definition. -/
theorem sharedEncodingsAreOneInstruction : Obligations.SharedEncodingsAreOneInstruction :=
  fun _ _ => ⟨⟨rfl, rfl⟩, ⟨rfl, rfl⟩, ⟨rfl, rfl⟩, ⟨rfl, rfl⟩⟩

end Sys2Proof
end

section
/-! PROOF. The conditional jumps (43_jumps.md). `condJump` is a conditional jump in the sense of R160 and R161 whatever
its condition is, and each mnemonic is `condJump` of its own condition. -/

namespace Sys2Proof.Machine

open Sys2Proof.Claims

/-- R160, R161: an instruction whose meaning is `condJump` of a condition jumps as that condition says. -/
theorem conditional_of_condJump {mk : BitVec 8 → Instr} {taken : State → Content Bool}
    (h : ∀ (s : State) (off8 : BitVec 8), exec (mk off8) s = condJump (taken s) off8 s) :
    Conditional mk taken := by
  intro s off8
  rw [h]
  refine completesUnless8 fun _ => ⟨_, rfl, ?_⟩
  rcases s.branch_cases (taken s) (value8 s off8) with ⟨hcond, hb⟩ | ⟨hcond, hb⟩ <;> rw [hb]
  · exact ⟨⟨fun _ => rfl, rfl, rfl, rfl, rfl⟩, ⟨rfl, rfl, rfl, rfl⟩, fun _ => s.jump_pcRelative _,
      fun hf => absurd hf hcond, fun _ => .inl (s.jump_pcRelative _)⟩
  · exact ⟨⟨fun _ => rfl, rfl, rfl, rfl, rfl⟩, ⟨rfl, rfl, rfl, rfl⟩, fun ht => absurd ht hcond,
      fun _ => s.nextPc_eq, fun _ => .inr s.nextPc_eq⟩

/-- Settles O47: each jump is `condJump` of its flag, and its word is the encoder's. -/
theorem jumpsOnOneFlag : Obligations.JumpsOnOneFlag := by
  refine ⟨?_, ?_, ?_, ?_, ?_, ?_, ?_, ?_, ?_, ?_, ?_, ?_, fun off8 => ?_⟩
  case refine_13 =>
    exact ⟨isWordOf_encode rfl, rfl, isWordOf_encode rfl, isWordOf_encode rfl, rfl, isWordOf_encode rfl,
      isWordOf_encode rfl, rfl, isWordOf_encode rfl, isWordOf_encode rfl, rfl, isWordOf_encode rfl⟩
  all_goals exact conditional_of_condJump fun _ _ => rfl

end Sys2Proof.Machine
end

section
/-! PROOF. What the assembler makes of a 16-bit operand (30_encoding.md R86, R94; 92_eei_decisions.md D22). Its
instruction runs in the state before or in the state right after EXTI; `UpToExti` names the two, and what the
instruction does there it does, but for PC, to the state before. -/

namespace Sys2Proof.Machine

open Sys2Proof.Claims

/-! ## Straight lists of one or two instructions -/

theorem execAll_cons_of_next {i : Instr} {s t : State} (rest : List Instr) (h : exec i s = .next t) :
    execAll (i :: rest) s = execAll rest t := by
  simp only [execAll, h]

theorem execAll_singleton (i : Instr) (s : State) : execAll [i] s = exec i s := by
  unfold execAll
  cases exec i s <;> rfl

theorem execAll_exti (e : BitVec 13) (i : Instr) (s : State) :
    execAll [.exti e, i] s = exec i (s.extend e) :=
  (execAll_cons_of_next [i] rfl).trans (execAll_singleton i (s.extend e))

/-! ## The state an assembled instruction runs in -/

/-- `u` is `s`, or the state after an EXTI that ran in `s`. -/
def UpToExti (s u : State) : Prop := u = s ∨ ∃ e, exec (.exti e) s = .next u

namespace UpToExti

variable {s u t : State} {rd : RegNum} {v : Content Word}

theorem eq_or_extend (h : UpToExti s u) : u = s ∨ ∃ e, u = s.extend e :=
  h.imp_right fun ⟨e, he⟩ => ⟨e, (Host.Outcome.next.inj he).symm⟩

theorem reg_eq (h : UpToExti s u) (q : RegNum) : u.reg q = s.reg q := by
  rcases h.eq_or_extend with rfl | ⟨e, rfl⟩ <;> rfl

theorem wordAt_eq (h : UpToExti s u) (a : Content Word) : wordAt u a = wordAt s a := by
  rcases h.eq_or_extend with rfl | ⟨e, rfl⟩ <;> rfl

theorem sameFlags (h : UpToExti s u) (ht : SameFlags u t) : SameFlags s t := by
  rcases h.eq_or_extend with rfl | ⟨e, rfl⟩ <;> exact ht

theorem writesRegister (h : UpToExti s u) (ht : WritesRegister u t rd v) : WritesRegister s t rd v := by
  rcases h.eq_or_extend with rfl | ⟨e, rfl⟩ <;> exact ht

theorem writesNoWord (h : UpToExti s u) (ht : WritesNoWord u t) : WritesNoWord s t := by
  rcases h.eq_or_extend with rfl | ⟨e, rfl⟩ <;> exact ht

end UpToExti

theorem upToExti_of_exec {s u : State} {e : BitVec 13} (h : u = s ∨ exec (.exti e) s = .next u) : UpToExti s u :=
  h.imp_right fun hu => ⟨_, hu⟩

/-! ## The long form of a constant -/

/-- R86, R94: the thirteen bits in EXTI and the three in the field make up the constant. -/
theorem longValue_extend (s : State) (v : Word) :
    longValue (s.extend (v.extractLsb' 3 13)) (longField v) = .defined v := by
  refine congrArg Content.defined (BitVec.eq_of_toNat_eq ?_)
  have hv := v.isLt
  simp only [longField, BitVec.toNat_ofNat, BitVec.extractLsb'_toNat, Nat.shiftRight_eq_div_pow]
  omega

theorem toNat_zero_append {m n : Nat} (x : BitVec n) : (0#m ++ x).toNat = x.toNat := by
  simp [BitVec.toNat_append]

/-- The bits of imm5 and imm8 above bit 2 are zero in the long form (R87). -/
theorem longField_toNat_lt (m : Nat) (v : Word) : (0#m ++ longField v).toNat < 8 := by
  rw [toNat_zero_append]
  exact (longField v).isLt

theorem value5_extend (s : State) (v : Word) :
    value5 (s.extend (v.extractLsb' 3 13)) (0#2 ++ longField v) = .defined v := by
  have hlow : (0#2 ++ longField v : BitVec 5).extractLsb' 0 3 = longField v := BitVec.extractLsb'_append_eq_right
  simp only [value5, State.extend_hasExt13, if_true, hlow, longValue_extend]

theorem value8_extend (s : State) (v : Word) :
    value8 (s.extend (v.extractLsb' 3 13)) (0#5 ++ longField v) = .defined v := by
  have hlow : (0#5 ++ longField v : BitVec 8).extractLsb' 0 3 = longField v := BitVec.extractLsb'_append_eq_right
  simp only [value8, State.extend_hasExt13, if_true, hlow, longValue_extend]

/-- Two instructions on, the first of them EXTI (R22, R150). -/
theorem State.pcPlus_extend (s : State) (e : BitVec 13) : pcPlus (s.extend e) 1 = pcPlus s 2 := by
  show s.nextPc.map _ = s.pc.map _
  rw [State.nextPc, Content.map_map]
  refine congrArg (fun f => s.pc.map f) (funext fun p => BitVec.eq_of_toNat_eq ?_)
  simp [Nat.add_assoc]

/-! ## What each kind of field reaches -/

theorem value5_short {s : State} (he : s.hasExt13 = false) {v : Word}
    (h : (v.extractLsb' 0 5).signExtend 16 = v) : value5 s (v.extractLsb' 0 5) = .defined v := by
  rw [value5, he, if_neg Bool.false_ne_true, ← signExtend_eq_ofInt, h]

theorem value8_short {s : State} (he : s.hasExt13 = false) {v : Word}
    (h : (v.extractLsb' 0 8).signExtend 16 = v) : value8 s (v.extractLsb' 0 8) = .defined v := by
  rw [value8, he, if_neg Bool.false_ne_true, ← signExtend_eq_ofInt, h]

/-- imm5 and off5: the short form reaches what its sign extension gives, EXTI the rest. -/
theorem assemble5_reaches {s : State} (he : s.hasExt13 = false) (v : Word) (mk : BitVec 5 → Instr) :
    ∃ u f, execAll (assemble5 mk v) s = exec (mk f) u ∧ (u = s ∨ exec (extendFor v) s = .next u) ∧
      Field5Ok u f ∧ value5 u f = .defined v := by
  by_cases h : (v.extractLsb' 0 5).signExtend 16 = v
  · refine ⟨s, v.extractLsb' 0 5, ?_, .inl rfl, fun hl => by simp [he] at hl, value5_short he h⟩
    rw [assemble5, if_pos h, execAll_singleton]
  · refine ⟨s.extend (v.extractLsb' 3 13), 0#2 ++ longField v, ?_, .inr rfl, fun _ => longField_toNat_lt 2 v,
      value5_extend s v⟩
    rw [assemble5, if_neg h, extendFor, execAll_exti]

/-- imm8 and off8: the same. -/
theorem assemble8_reaches {s : State} (he : s.hasExt13 = false) (v : Word) (mk : BitVec 8 → Instr) :
    ∃ u f, execAll (assemble8 mk v) s = exec (mk f) u ∧ (u = s ∨ exec (extendFor v) s = .next u) ∧
      Field8Ok u f ∧ value8 u f = .defined v := by
  by_cases h : (v.extractLsb' 0 8).signExtend 16 = v
  · refine ⟨s, v.extractLsb' 0 8, ?_, .inl rfl, fun hl => by simp [he] at hl, value8_short he h⟩
    rw [assemble8, if_pos h, execAll_singleton]
  · refine ⟨s.extend (v.extractLsb' 3 13), 0#5 ++ longField v, ?_, .inr rfl, fun _ => longField_toNat_lt 5 v,
      value8_extend s v⟩
    rw [assemble8, if_neg h, extendFor, execAll_exti]

/-- The assembler takes the short form for a constant of decode_imm_al, IMM_AL_3 among them, and EXTI otherwise. -/
theorem assembleAlu_cases (mk : BitVec 3 → Instr) (v : Word) :
    (∃ f, assembleAlu mk v = [mk f] ∧ immAl f = some v) ∨ assembleAlu mk v = [extendFor v, mk (longField v)] := by
  have row {f : BitVec 3} {c : Word} (hf : immAl f = some c) (hv : v.toNat = c.toNat) : immAl f = some v := by
    rw [hf, BitVec.eq_of_toNat_eq hv]
  unfold assembleAlu
  split
  case h_1 hv => exact .inl ⟨0, rfl, row (c := 0x0000) rfl hv⟩
  case h_2 hv => exact .inl ⟨1, rfl, row (c := 0x0001) rfl hv⟩
  case h_3 hv => exact .inl ⟨2, rfl, row (c := 0x8000) rfl hv⟩
  case h_4 hv => exact .inl ⟨4, rfl, row (c := 0x00FF) rfl hv⟩
  case h_5 hv => exact .inl ⟨5, rfl, row (c := 0xFF00) rfl hv⟩
  case h_6 hv => exact .inl ⟨6, rfl, row (c := 0x7FFF) rfl hv⟩
  case h_7 hv => exact .inl ⟨7, rfl, row (c := 0xFFFF) rfl hv⟩
  case h_8 =>
    split
    · next h3 => exact .inl ⟨3, rfl, h3⟩
    · exact .inr rfl

/-- A row of decode_imm_al with the value `v` is a row of the table, or "TBD" with IMM_AL_3 = `v` (R9). -/
theorem aluTable_or_immAl3_of_immAl {f : BitVec 3} {v : Word} (h : immAl f = some v) :
    f.toNat ≠ 3 ∧ aluTable f = v ∨ f = 3#3 ∧ Config.immAl3 = some v := by
  by_cases h3 : f.toNat = 3
  · obtain rfl : f = 3#3 := BitVec.eq_of_toNat_eq h3
    exact .inr ⟨rfl, h⟩
  · rw [immAl_eq h3, Option.some.injEq] at h
    exact .inl ⟨h3, h⟩

/-- imm3 of the arithmetic and logical immediates: the rows of decode_imm_al (R9), and EXTI for the rest. -/
theorem assembleAlu_reaches {s : State} (he : s.hasExt13 = false) (v : Word) (mk : BitVec 3 → Instr) :
    ∃ u f, execAll (assembleAlu mk v) s = exec (mk f) u ∧ (u = s ∨ exec (extendFor v) s = .next u) ∧
      (AluFieldOk u f ∧ aluValue u f = .defined v ∨ u = s ∧ f = 3#3 ∧ Config.immAl3 = some v) := by
  rcases assembleAlu_cases mk v with ⟨f, hmk, himm⟩ | hmk
  · refine ⟨s, f, by rw [hmk, execAll_singleton], .inl rfl, ?_⟩
    rcases aluTable_or_immAl3_of_immAl himm with ⟨h3, hv⟩ | h3
    · exact .inl ⟨.inr h3, by simp [aluValue, he, hv]⟩
    · exact .inr ⟨rfl, h3⟩
  · refine ⟨s.extend (v.extractLsb' 3 13), longField v, by rw [hmk, extendFor, execAll_exti], .inr rfl,
      .inl ⟨.inl rfl, ?_⟩⟩
    simp only [aluValue, State.extend_hasExt13, if_true, longValue_extend]

/-- imm3 of the shifts and rotates: the short form for 1 to 8 (R9), and EXTI for the rest. -/
theorem assembleShift_reaches {s : State} (he : s.hasExt13 = false) (v : Word) (mk : BitVec 3 → Instr) :
    ∃ u f, execAll (assembleShift mk v) s = exec (mk f) u ∧ (u = s ∨ exec (extendFor v) s = .next u) ∧
      shiftValue u f = .defined v := by
  by_cases h : 1 ≤ v.toNat ∧ v.toNat ≤ 8
  · refine ⟨s, v.extractLsb' 0 3, by rw [assembleShift, if_pos h, execAll_singleton], .inl rfl, ?_⟩
    -- the low three bits of 8 are 0, which stands for 8
    have hf : (if (v.extractLsb' 0 3).toNat = 0 then 8 else (v.extractLsb' 0 3).toNat) = v.toNat := by
      rw [BitVec.extractLsb'_toNat, Nat.shiftRight_zero]
      split <;> omega
    simp only [shiftValue, he, Bool.false_eq_true, if_false, hf, BitVec.ofNat_toNat, BitVec.setWidth_eq]
  · refine ⟨s.extend (v.extractLsb' 3 13), longField v, by rw [assembleShift, if_neg h, extendFor, execAll_exti],
      .inr rfl, ?_⟩
    simp only [shiftValue, State.extend_hasExt13, if_true, longValue_extend]

/-! ## Labels -/

/-- The offset of a label, counted from where the jump stands, leads to the label (R94, R160). -/
theorem addWords_labelOffset {u : State} {a label : Word} (h : u.pc = .defined a) :
    addWords (pcPlus u 1) (.defined (labelOffset a label)) = .defined label := by
  rw [← State.nextPc_eq, ← Content.map₂_add, State.nextPc_defined h, Content.map₂_defined, labelOffset,
    BitVec.add_comm, BitVec.sub_add_cancel]

/-- With EXTI the jump is the word at `a + 1`, so that its own offset is the one counted from there. -/
theorem assembleLabel_reaches {s : State} (he : s.hasExt13 = false) {a : Word} (label : Word)
    (mk : BitVec 8 → Instr) (hpc : s.pc = .defined a) :
    ∃ u f e, execAll (assembleLabel mk a label) s = exec (mk f) u ∧ (u = s ∨ exec (.exti e) s = .next u) ∧
      Field8Ok u f ∧ addWords (pcPlus u 1) (value8 u f) = .defined label := by
  let near := labelOffset a label
  let far := labelOffset (a + 1) label
  by_cases h : (near.extractLsb' 0 8).signExtend 16 = near
  · refine ⟨s, near.extractLsb' 0 8, 0, ?_, .inl rfl, fun hl => by simp [he] at hl, ?_⟩
    · exact (congrArg (execAll · s) (if_pos h)).trans (execAll_singleton _ s)
    · rw [value8_short he h, addWords_labelOffset hpc]
  · refine ⟨s.extend (far.extractLsb' 3 13), 0#5 ++ longField far, far.extractLsb' 3 13, ?_, .inr rfl,
      fun _ => longField_toNat_lt 5 far, ?_⟩
    · exact (congrArg (execAll · s) (if_neg h)).trans (execAll_exti _ _ s)
    · rw [value8_extend, addWords_labelOffset (State.nextPc_defined hpc)]

/-! ## The instructions that are run, with the operand they have -/

theorem exec_ld_next {s : State} {rd ra : RegNum} {f : BitVec 5} (h : Field5Ok s f) :
    exec (.ld rd ra f) s = .next (s.finishLoad rd (s.baseAddr ra (value5 s f))) := by
  show execLd rd ra f s = _
  rw [execLd, State.operand5_ok h, withOperand_ok]

theorem exec_movi_next {s : State} {rd : RegNum} {f : BitVec 8} (h : Field8Ok s f) :
    exec (.movi rd f) s = .next (s.setReg rd (value8 s f)).advance := by
  show execMovi rd f s = _
  rw [execMovi, State.operand8_ok h, withOperand_ok]

/-- R111, R114: an addition writes the sum to Rd. -/
theorem State.finishArith_addOut_reg (s : State) (rd : RegNum) (a b : Content Word) (c : Content Bool) :
    WritesRegister s (s.finishArith rd (Content.map₃ addOut a b c)) rd (sumWord a b c) := by
  have hres : (Content.map₃ addOut a b c).map AluOut.res = sumWord a b c := by
    simp only [Content.map_map₃, addOut_eq, sumWord]
  rw [← hres]
  exact (s.finishArith_frame rd _).2

/-- R111: an addition sets the flags of the sum. -/
theorem State.finishArith_addOut_flags (s : State) (rd : RegNum) (a b : Content Word) (c : Content Bool) :
    SumFlags (s.finishArith rd (Content.map₃ addOut a b c)) a b c :=
  State.setArithFlags_add (s.setReg rd ((Content.map₃ addOut a b c).map AluOut.res)) a b c

theorem exec_addi_next {s : State} {rd ra : RegNum} {f : BitVec 3} {opB : Content Word}
    (h : s.aluOperand f = .ok opB) :
    exec (.addi rd ra f) s = .next (s.finishArith rd (Content.map₃ addOut (s.reg ra) opB (.defined false))) := by
  show execAddi rd ra f s = _
  rw [execAddi, arithImm, h, withOperand_ok, Content.map₂_eq_map₃]

theorem exec_slli_next {s : State} {rd ra : RegNum} {f : BitVec 3} {n : Word}
    (h : shiftValue s f = .defined n) (hn : n.toNat ≤ 15) :
    exec (.slli rd ra f) s = .next (s.finishLogic rd ((s.reg ra).map (sllWord n.toNat))) := by
  have hmap : (fun x => shiftLeft x n.toNat) = sllWord n.toNat := funext fun x => shiftLeft_eq x n.toNat
  show execSlli rd ra f s = _
  rw [execSlli, shiftImm, State.shiftOperand_eq, shiftAmount_ok h hn, withOperand_ok, hmap]

theorem exec_j_next {s : State} {f : BitVec 8} (h : Field8Ok s f) :
    exec (.j f) s = .next (s.jump (s.pcRelative (value8 s f))) := by
  show execJ f s = _
  rw [execJ, State.operand8_ok h, withOperand_ok]

/-! ## One run of each kind -/

section Runs

variable {s : State} (he : s.hasExt13 = false) (rd ra : RegNum) (v : Word)

include he

theorem assemble5_ld : ∃ t, execAll (assemble5 (.ld rd ra) v) s = .next t ∧ SameFlags s t ∧
    WritesRegister s t rd (wordAt s (addWords (s.reg ra) (.defined v))) := by
  obtain ⟨u, f, hrun, hu, hok, hval⟩ := assemble5_reaches he v (.ld rd ra)
  have hext := upToExti_of_exec hu
  refine ⟨_, hrun.trans (exec_ld_next hok), hext.sameFlags ⟨rfl, rfl, rfl, rfl⟩, hext.writesRegister ?_⟩
  rw [← hext.wordAt_eq, ← hext.reg_eq, ← hval, ← Content.map₂_add, ← State.memReadAt_eq]
  exact State.setReg_advance u rd _

theorem assemble8_movi : ∃ t, execAll (assemble8 (.movi rd) v) s = .next t ∧
    WritesRegister s t rd (.defined v) ∧ SameFlags s t := by
  obtain ⟨u, f, hrun, hu, hok, hval⟩ := assemble8_reaches he v (.movi rd)
  have hext := upToExti_of_exec hu
  refine ⟨_, hrun.trans (exec_movi_next hok), hext.writesRegister ?_, hext.sameFlags ⟨rfl, rfl, rfl, rfl⟩⟩
  rw [← hval]
  exact State.setReg_advance u rd _

theorem assembleAlu_addi : ∃ t, execAll (assembleAlu (.addi rd ra) v) s = .next t ∧
    WritesRegister s t rd (sumWord (s.reg ra) (.defined v) (.defined false)) ∧
    SumFlags t (s.reg ra) (.defined v) (.defined false) := by
  obtain ⟨u, f, hrun, hu, hval⟩ := assembleAlu_reaches he v (.addi rd ra)
  have hext := upToExti_of_exec hu
  have hop : u.aluOperand f = .ok (.defined v) := by
    rcases hval with ⟨hok, hv⟩ | ⟨rfl, rfl, h3⟩
    · rw [State.aluOperand_ok hok, hv]
    · have himm : immAl 3#3 = some v := h3
      simp only [State.aluOperand, he, himm, tableOperand]
  refine ⟨_, hrun.trans (exec_addi_next hop), hext.writesRegister ?_, ?_⟩ <;> rw [← hext.reg_eq]
  · exact u.finishArith_addOut_reg rd _ _ _
  · exact u.finishArith_addOut_flags rd _ _ _

theorem assembleShift_slli (hv : v.toNat ≤ 15) : ∃ t, execAll (assembleShift (.slli rd ra) v) s = .next t ∧
    WritesRegister s t rd ((s.reg ra).map (sllWord v.toNat)) ∧
    LogicFlags t ((s.reg ra).map (sllWord v.toNat)) := by
  obtain ⟨u, f, hrun, hu, hval⟩ := assembleShift_reaches he v (.slli rd ra)
  have hext := upToExti_of_exec hu
  obtain ⟨-, hreg, hflags⟩ := u.finishLogic_frame rd ((u.reg ra).map (sllWord v.toNat))
  rw [← hext.reg_eq]
  exact ⟨_, hrun.trans (exec_slli_next hval hv), hext.writesRegister hreg, hflags⟩

theorem assembleLabel_j {p : Word} (hpc : s.pc = .defined p) : ∃ t, execAll (assembleLabel .j p v) s = .next t ∧
    t.pc = .defined v ∧ SameFlags s t ∧ WritesNoWord s t := by
  obtain ⟨u, f, e, hrun, hu, hok, htarget⟩ := assembleLabel_reaches he v .j hpc
  have hext := upToExti_of_exec hu
  exact ⟨_, hrun.trans (exec_j_next hok), (u.jump_pcRelative _).trans htarget,
    hext.sameFlags ⟨rfl, rfl, rfl, rfl⟩, hext.writesNoWord ⟨fun _ => rfl, rfl, rfl, rfl, rfl⟩⟩

end Runs

/-! ## The statements -/

/-- Settles O40: EXTI and the field make up `v`, and MOVI writes it. -/
theorem longFormReachesEveryConstant : Obligations.LongFormReachesEveryConstant := by
  intro s rd v
  let u := s.extend (v.extractLsb' 3 13)
  have hext : UpToExti s u := .inr ⟨_, rfl⟩
  refine ⟨_, (execAll_exti _ _ s).trans (exec_movi_next fun _ => longField_toNat_lt 5 v),
    hext.writesRegister ?_, ⟨rfl, rfl, rfl, rfl⟩, u.nextPc_eq.trans (s.pcPlus_extend _)⟩
  rw [← value8_extend s v]
  exact u.setReg_advance rd _

/-- Settles O60: each kind of field reaches its operand in one of its two forms, and so does the run of each kind. -/
theorem assembledOperandsAreReached : Obligations.AssembledOperandsAreReached :=
  fun _ rd ra v he =>
    ⟨assemble5_reaches he v, assemble8_reaches he v, assembleAlu_reaches he v, assembleShift_reaches he v,
      fun mk _ => assembleLabel_reaches he v mk, assemble5_ld he rd ra v, assemble8_movi he rd v,
      assembleAlu_addi he rd ra v, assembleShift_slli he rd ra v, fun _ => assembleLabel_j he v⟩

end Sys2Proof.Machine
end

section
/-! PROOF. The arithmetic and logical instructions (40_arith_logic.md). Each is one of a few shared operations, whose
end writes the result of the ALU to Rd and its flags; the immediate forms differ from the register forms by the second
operand only (R110). The remarks of ADC and SBB on two-word numbers follow from two such ends. -/

namespace Sys2Proof.Machine

open Sys2Proof.Claims

/-! ## The shared operations, with the operands they have -/

section Operations

variable (s : State) (rd ra rb : RegNum) {imm3 : BitVec 3}

theorem arithReg_eq (f : Word → Word → Bool → AluOut) (k : Bool) :
    arithReg (f · · k) rd ra rb s =
      .next (s.finishArith rd (Content.map₃ f (s.reg ra) (s.reg rb) (.defined k))) := by
  rw [arithReg, Content.map₂_eq_map₃]

theorem arithImm_eq (f : Word → Word → Bool → AluOut) (k : Bool) (h : AluFieldOk s imm3) :
    arithImm (f · · k) rd ra imm3 s =
      .next (s.finishArith rd (Content.map₃ f (s.reg ra) (aluValue s imm3) (.defined k))) := by
  rw [arithImm, State.aluOperand_ok h, withOperand_ok, Content.map₂_eq_map₃]

theorem arithImmCarry_eq (f : Word → Word → Bool → AluOut) (h : AluFieldOk s imm3) :
    arithImmCarry f rd ra imm3 s =
      .next (s.finishArith rd (Content.map₃ f (s.reg ra) (aluValue s imm3) s.flagC)) := by
  rw [arithImmCarry, State.aluOperand_ok h, withOperand_ok]

theorem logicImm_eq (f : Word → Word → Word) (h : AluFieldOk s imm3) :
    logicImm f rd ra imm3 s = .next (s.finishLogic rd (Content.map₂ f (s.reg ra) (aluValue s imm3))) := by
  rw [logicImm, State.aluOperand_ok h, withOperand_ok]

end Operations

/-! ## What an end of the family leaves -/

section Ends

variable {s : State} {r : Result} {rd : RegNum} {a b res : Content Word} {c : Content Bool}

/-- R111: an instruction that ends with an addition leaves the sum and its flags. -/
theorem completes_with_sum (h : r = .next (s.finishArith rd (Content.map₃ addOut a b c))) :
    ∃ t, r = .next t ∧ t.pc = pcPlus s 1 ∧ WritesRegister s t rd (sumWord a b c) ∧ SumFlags t a b c :=
  ⟨_, h, (s.finishArith_frame rd _).1, s.finishArith_addOut_reg rd a b c, s.finishArith_addOut_flags rd a b c⟩

/-- R111: an instruction that ends with a subtraction leaves the difference and its flags. -/
theorem completes_with_diff (h : r = .next (s.finishArith rd (Content.map₃ subOut a b c))) :
    ∃ t, r = .next t ∧ t.pc = pcPlus s 1 ∧ WritesRegister s t rd (diffWord a b c) ∧ DiffFlags t a b c := by
  have hres : (Content.map₃ subOut a b c).map AluOut.res = diffWord a b c := by
    simp only [Content.map_map₃, subOut_eq, diffWord]
  obtain ⟨hpc, hreg⟩ := s.finishArith_frame rd (Content.map₃ subOut a b c)
  exact ⟨_, h, hpc, hres ▸ hreg, (s.setReg rd ((Content.map₃ subOut a b c).map AluOut.res)).setArithFlags_sub a b c⟩

/-- R30: an instruction that ends with a logical operation leaves its result, Z and S. -/
theorem completes_with_logic (h : r = .next (s.finishLogic rd res)) :
    ∃ t, r = .next t ∧ t.pc = pcPlus s 1 ∧ WritesRegister s t rd res ∧ LogicFlags t res :=
  ⟨_, h, s.finishLogic_frame rd res⟩

end Ends

/-! ## The "TBD" row of decode_imm_al -/

/-- R86, R110: where ext13 and imm3 make up `v`, the operand is `v`. -/
theorem State.aluOperand_extended (s : State) (v : Word) :
    { s with hasExt13 := true, ext13 := .defined (v.extractLsb' 3 13) }.aluOperand (v.extractLsb' 0 3) =
      .ok (.defined v) :=
  congrArg Except.ok ((State.longOperand_eq _ _).trans (longValue_extend s v))

/-- R110, D14: an immediate of the ALU whose meaning `k` reads neither ext13 nor has_ext13 but through its operand
is refused on row 3 without IMM_AL_3, and takes it as its operand otherwise. -/
theorem rowThree_of_aluOperand {s : State} {mk : BitVec 3 → Instr} (k : State → Content Word → Result)
    (hmk : ∀ (u : State) (imm3 : BitVec 3), exec (mk imm3) u = withOperand (u.aluOperand imm3) (k u))
    (hk : ∀ (e : Content (BitVec 13)) (opB : Content Word), k { s with hasExt13 := true, ext13 := e } opB = k s opB) :
    RowThree s mk := by
  intro he
  have hshort : s.aluOperand 3#3 = tableOperand Config.immAl3 := by rw [State.aluOperand, he]; rfl
  have hlong (v : Word) : k s (.defined v) = exec (mk (v.extractLsb' 0 3))
      { s with hasExt13 := true, ext13 := .defined (v.extractLsb' 3 13) } := by
    rw [hmk, State.aluOperand_extended, withOperand_ok, hk]
  rw [hmk, hshort]
  cases Config.immAl3 with
  | none => rfl
  | some v => exact hlong v

theorem rowThree_of_arithImm {mk : BitVec 3 → Instr} (f : Word → Word → AluOut) (rd ra : RegNum) (s : State)
    (hmk : ∀ (u : State) (imm3 : BitVec 3), exec (mk imm3) u = arithImm f rd ra imm3 u) : RowThree s mk :=
  rowThree_of_aluOperand _ hmk fun _ _ => rfl

theorem rowThree_of_arithImmCarry {mk : BitVec 3 → Instr} (f : Word → Word → Bool → AluOut) (rd ra : RegNum)
    (s : State) (hmk : ∀ (u : State) (imm3 : BitVec 3), exec (mk imm3) u = arithImmCarry f rd ra imm3 u) :
    RowThree s mk :=
  rowThree_of_aluOperand _ hmk fun _ _ => rfl

theorem rowThree_of_logicImm {mk : BitVec 3 → Instr} (f : Word → Word → Word) (rd ra : RegNum) (s : State)
    (hmk : ∀ (u : State) (imm3 : BitVec 3), exec (mk imm3) u = logicImm f rd ra imm3 u) : RowThree s mk :=
  rowThree_of_aluOperand _ hmk fun _ _ => rfl

/-! ## One instruction -/

/-- Settles O20: both end with an addition, ADD with a carry in of 0 and ADC with C. -/
theorem addAndAdcAddRegisters : Obligations.AddAndAdcAddRegisters :=
  fun s rd ra rb => ⟨isWordOf_encode rfl, isWordOf_encode rfl,
    completes_with_sum (arithReg_eq s rd ra rb addOut false), completes_with_sum rfl⟩

/-- Settles O22: both end with a subtraction, SUB with a carry in of 1 and SBB with C. -/
theorem subAndSbbSubtractRegisters : Obligations.SubAndSbbSubtractRegisters :=
  fun s rd ra rb => ⟨isWordOf_encode rfl, isWordOf_encode rfl,
    completes_with_diff (arithReg_eq s rd ra rb subOut true), completes_with_diff rfl⟩

/-- Settles O26: the three are one logical end, each with its own operation on words. -/
theorem logicOnRegisters : Obligations.LogicOnRegisters :=
  fun _ _ _ _ => ⟨isWordOf_encode rfl, isWordOf_encode rfl, isWordOf_encode rfl,
    completes_with_logic rfl, completes_with_logic rfl, completes_with_logic rfl⟩

/-- Settles O21: the ends of ADD and ADC with the operand of R110, and row 3 as every immediate of the ALU has it. -/
theorem addiAndAdciAddImmediates : Obligations.AddiAndAdciAddImmediates :=
  fun s rd ra _ => ⟨isWordOf_encode rfl, isWordOf_encode rfl,
    rowThree_of_arithImm (addOut · · false) rd ra s fun _ _ => rfl,
    rowThree_of_arithImmCarry addOut rd ra s fun _ _ => rfl,
    fun h => ⟨completes_with_sum (arithImm_eq s rd ra addOut false h),
      completes_with_sum (arithImmCarry_eq s rd ra addOut h)⟩⟩

/-- Settles O23: the ends of SUB and SBB with the operand of R110, and row 3 as every immediate of the ALU has it. -/
theorem subiAndSbbiSubtractImmediates : Obligations.SubiAndSbbiSubtractImmediates :=
  fun s rd ra _ => ⟨isWordOf_encode rfl, isWordOf_encode rfl,
    rowThree_of_arithImm (subOut · · true) rd ra s fun _ _ => rfl,
    rowThree_of_arithImmCarry subOut rd ra s fun _ _ => rfl,
    fun h => ⟨completes_with_diff (arithImm_eq s rd ra subOut true h),
      completes_with_diff (arithImmCarry_eq s rd ra subOut h)⟩⟩

/-- Settles O27: the ends of AND, OR and XOR with the operand of R110, and row 3 as every immediate of the ALU has
it. -/
theorem logicOnImmediates : Obligations.LogicOnImmediates :=
  fun s rd ra _ => ⟨isWordOf_encode rfl, isWordOf_encode rfl, isWordOf_encode rfl,
    rowThree_of_logicImm (· &&& ·) rd ra s fun _ _ => rfl,
    rowThree_of_logicImm (· ||| ·) rd ra s fun _ _ => rfl,
    rowThree_of_logicImm (· ^^^ ·) rd ra s fun _ _ => rfl,
    fun h => ⟨completes_with_logic (logicImm_eq s rd ra _ h), completes_with_logic (logicImm_eq s rd ra _ h),
      completes_with_logic (logicImm_eq s rd ra _ h)⟩⟩

/-! ## Two-word numbers -/

/-- Every register after an arithmetic instruction. -/
theorem State.reg_finishArith (s : State) (rd q : RegNum) (o : Content AluOut) :
    (s.finishArith rd o).reg q = if q = rd then o.map AluOut.res else s.reg q :=
  WritesRegister.reg (s.finishArith_frame rd o).2 q

/-- An operation on the low words, and the same operation with C on the high words: the carry out of the first is
the carry into the second, which reads the operands the first has left. -/
theorem execAll_low_then_high {s : State} {i j : Instr} {f : Word → Word → Bool → AluOut} {k : Bool}
    {d0 d1 a0 a1 b0 b1 : RegNum} {al ah bl bh : Word}
    (hlow : exec i s = arithReg (f · · k) d0 a0 b0 s) (hhigh : ∀ t, exec j t = arithRegCarry f d1 a1 b1 t)
    (ha0 : s.reg a0 = .defined al) (ha1 : s.reg a1 = .defined ah)
    (hb0 : s.reg b0 = .defined bl) (hb1 : s.reg b1 = .defined bh)
    (hda : d0 ≠ a1) (hdb : d0 ≠ b1) (hd : d0 ≠ d1) :
    ∃ t, execAll [i, j] s = .next t ∧ t.reg d0 = .defined (f al bl k).res ∧
      t.reg d1 = .defined (f ah bh (f al bl k).c).res ∧ t.flagC = .defined (f ah bh (f al bl k).c).c := by
  let t := s.finishArith d0 (.defined (f al bl k))
  let u := t.finishArith d1 (.defined (f ah bh (f al bl k).c))
  have hfirst : exec i s = .next t := by rw [hlow, arithReg_eq, ha0, hb0]; rfl
  have hta : t.reg a1 = .defined ah := by rw [State.reg_finishArith, if_neg hda.symm, ha1]
  have htb : t.reg b1 = .defined bh := by rw [State.reg_finishArith, if_neg hdb.symm, hb1]
  have hsecond : exec j t = .next u := by rw [hhigh, arithRegCarry, hta, htb]; rfl
  refine ⟨u, ?_, ?_, ?_, rfl⟩
  · rw [execAll_cons_of_next [j] hfirst, execAll_singleton, hsecond]
  · rw [State.reg_finishArith, if_neg hd, State.reg_finishArith, if_pos rfl, Content.map_defined]
  · rw [State.reg_finishArith, if_pos rfl, Content.map_defined]

theorem addOut_res_toNat (a b : Word) (k : Bool) :
    (addOut a b k).res.toNat = (a.toNat + b.toNat + k.toNat) % 65536 := by
  rw [addOut_eq, BitVec.toNat_ofNat]

theorem addOut_c (a b : Word) (k : Bool) : (addOut a b k).c = decide (65536 ≤ a.toNat + b.toNat + k.toNat) := by
  rw [addOut_eq]

theorem subOut_res_toNat (a b : Word) (k : Bool) :
    (subOut a b k).res.toNat = (65536 + a.toNat - b.toNat - (!k).toNat) % 65536 := by
  rw [subOut_eq, BitVec.toNat_ofNat]

theorem subOut_c (a b : Word) (k : Bool) : (subOut a b k).c = decide (b.toNat + (!k).toNat ≤ a.toNat) := by
  rw [subOut_eq]

/-- R111: with or without a carry out of the low words, the two words are the sum of the 32-bit numbers. -/
theorem addOut_two_words (al ah bl bh : Word) :
    (addOut ah bh (addOut al bl false).c).res.toNat * 65536 + (addOut al bl false).res.toNat =
        (ah.toNat * 65536 + al.toNat + (bh.toNat * 65536 + bl.toNat)) % 4294967296 ∧
      (addOut ah bh (addOut al bl false).c).c =
        decide (4294967296 ≤ ah.toNat * 65536 + al.toNat + (bh.toNat * 65536 + bl.toNat)) := by
  have hal := al.isLt; have hbl := bl.isLt; have hah := ah.isLt; have hbh := bh.isLt
  by_cases hcarry : 65536 ≤ al.toNat + bl.toNat
  all_goals
    simp only [addOut_res_toNat, addOut_c, Bool.toNat_false, Nat.add_zero, hcarry, decide_true, decide_false,
      Bool.toNat_true, decide_eq_decide]
    omega

/-- R111: with or without a borrow out of the low words, the two words are the difference of the 32-bit numbers. -/
theorem subOut_two_words (al ah bl bh : Word) :
    (subOut ah bh (subOut al bl true).c).res.toNat * 65536 + (subOut al bl true).res.toNat =
        (4294967296 + (ah.toNat * 65536 + al.toNat) - (bh.toNat * 65536 + bl.toNat)) % 4294967296 ∧
      (subOut ah bh (subOut al bl true).c).c =
        decide (bh.toNat * 65536 + bl.toNat ≤ ah.toNat * 65536 + al.toNat) := by
  have hal := al.isLt; have hbl := bl.isLt; have hah := ah.isLt; have hbh := bh.isLt
  by_cases hnoborrow : bl.toNat ≤ al.toNat
  all_goals
    simp only [subOut_res_toNat, subOut_c, Bool.not_true, Bool.toNat_false, Nat.add_zero, hnoborrow, decide_true,
      decide_false, Bool.not_false, Bool.toNat_true, decide_eq_decide]
    omega

/-- Settles O28: ADD's carry out is ADC's carry in, and the two sums are the 32-bit one. -/
theorem addThenAdcAddsTwoWords : Obligations.AddThenAdcAddsTwoWords := by
  intro s d0 d1 a0 a1 b0 b1 al ah bl bh ha0 ha1 hb0 hb1 hda hdb hd
  obtain ⟨t, hrun, hlo, hhi, hc⟩ := execAll_low_then_high (i := .add d0 a0 b0) (j := .adc d1 a1 b1) (f := addOut)
    (k := false) rfl (fun _ => rfl) ha0 ha1 hb0 hb1 hda hdb hd
  obtain ⟨hsum, hcarry⟩ := addOut_two_words al ah bl bh
  exact ⟨t, _, _, hrun, hlo, hhi, hsum, hc.trans (congrArg Content.defined hcarry)⟩

/-- Settles O29: SUB's not-borrow is SBB's carry in, and the two differences are the 32-bit one. -/
theorem subThenSbbSubtractsTwoWords : Obligations.SubThenSbbSubtractsTwoWords := by
  intro s d0 d1 a0 a1 b0 b1 al ah bl bh ha0 ha1 hb0 hb1 hda hdb hd
  obtain ⟨t, hrun, hlo, hhi, hc⟩ := execAll_low_then_high (i := .sub d0 a0 b0) (j := .sbb d1 a1 b1) (f := subOut)
    (k := true) rfl (fun _ => rfl) ha0 ha1 hb0 hb1 hda hdb hd
  obtain ⟨hdiff, hnoborrow⟩ := subOut_two_words al ah bl bh
  exact ⟨t, _, _, hrun, hlo, hhi, hdiff, hc.trans (congrArg Content.defined hnoborrow)⟩

end Sys2Proof.Machine
end

section
/-! PROOF. Compare and branch (43_jumps.md, the table of conditions; R118). Three facts hold of the flags that CMP leaves
for two values: Z says that they are equal, C orders them as unsigned numbers, S xor V as signed ones. The condition of
each comparison jump is one of the three or two of them together. -/

namespace Sys2Proof.Machine

open Sys2Proof.Claims

/-! ## The flags of a comparison -/

/-- The flags hold what CMP of `a` and `b` sets, read as the relations they stand for. -/
structure State.HoldsComparison (t : State) (a b : Word) : Prop where
  equal : t.flagZ = .defined (decide (a = b))
  unsignedGe : t.flagC = .defined (decide (b.toNat ≤ a.toNat))
  signedLt : t.condSignedLt = .defined (decide (a.toInt < b.toInt))

theorem subOut_z_eq_decide_eq (a b : Word) : (subOut a b true).z = decide (a = b) := by
  have ha := a.isLt; have hb := b.isLt
  rw [subOut_eq, decide_eq_decide, ← BitVec.toNat_inj]
  simp only [Bool.not_true, Bool.toNat_false]
  omega

theorem subOut_c_eq_decide_le (a b : Word) : (subOut a b true).c = decide (b.toNat ≤ a.toNat) := by
  rw [subOut_c]; rfl

/-- The sign of the difference is wrong exactly when the signed difference overflows. -/
theorem subOut_s_xor_v (a b : Word) :
    ((subOut a b true).s ^^ (subOut a b true).v) = decide (a.toInt < b.toInt) := by
  have ha := a.isLt; have hb := b.isLt
  rw [subOut_eq, Bool.eq_iff_iff]
  simp only [Bool.not_true, Bool.toNat_false, Bool.xor_iff_ne, ne_eq, decide_eq_decide, decide_eq_true_eq]
  rw [toInt_eq_if, toInt_eq_if]
  split <;> split <;> omega

/-- R118: CMP leaves the flags of the comparison. -/
theorem holdsComparison_cmp (s : State) (a b : Word) :
    (s.setArithFlags (.defined (subOut a b true))).advance.HoldsComparison a b where
  equal := congrArg Content.defined (subOut_z_eq_decide_eq a b)
  unsignedGe := congrArg Content.defined (subOut_c_eq_decide_le a b)
  signedLt := congrArg Content.defined (subOut_s_xor_v a b)

namespace State.HoldsComparison

variable {t : State} {a b : Word}

/-- Not above or equal, or equal. -/
theorem unsignedLe (h : t.HoldsComparison a b) : t.condUnsignedLe = .defined (decide (a.toNat ≤ b.toNat)) := by
  rw [State.condUnsignedLe, h.unsignedGe, h.equal, Content.map₂_defined]
  refine congrArg Content.defined ?_
  rw [Bool.eq_iff_iff]
  simp only [← BitVec.toNat_inj, Bool.or_eq_true, Bool.not_eq_true', decide_eq_false_iff_not, decide_eq_true_eq]
  omega

/-- Less or equal, with the S and V that decide less. -/
theorem signedLe (h : t.HoldsComparison a b) : t.condSignedLe = .defined (decide (a.toInt ≤ b.toInt)) := by
  have hsplit : t.condSignedLe = Content.map₂ (· || ·) t.condSignedLt t.flagZ := by
    unfold State.condSignedLe State.condSignedLt
    cases t.flagS <;> cases t.flagV <;> cases t.flagZ <;> rfl
  rw [hsplit, h.signedLt, h.equal, Content.map₂_defined]
  refine congrArg Content.defined ?_
  rw [Bool.eq_iff_iff]
  simp only [← BitVec.toInt_inj, Bool.or_eq_true, decide_eq_true_eq]
  omega

end State.HoldsComparison

/-! ## A jump on a condition that the flags decide -/

/-- Two instructions on, the first of them no jump (R22). -/
theorem pcPlus_of_pc_eq {s t : State} (h : t.pc = s.nextPc) : pcPlus t 1 = pcPlus s 2 :=
  (congrArg (Content.map _) h).trans (s.pcPlus_extend 0)

/-- R161: in short form a conditional jump whose condition is `c` goes to its target or on, as `c` says. -/
theorem branch_decides {mk : BitVec 8 → Instr} {taken : State → Content Bool} {t : State} {rel : Prop} {c : Bool}
    (off8 : BitVec 8) (hmk : ∀ (s : State) (off8 : BitVec 8), exec (mk off8) s = condJump (taken s) off8 s)
    (hshort : t.hasExt13 = false) (hc : taken t = .defined c) (hrel : rel ↔ c = true) :
    ∃ u, exec (mk off8) t = .next u ∧
      (rel → u.pc = addWords (pcPlus t 1) (.defined (BitVec.ofInt 16 off8.toInt))) ∧
      (¬ rel → u.pc = pcPlus t 1) := by
  have hok : Field8Ok t off8 := fun hl => absurd (hshort.symm.trans hl) Bool.false_ne_true
  have hval : value8 t off8 = .defined (BitVec.ofInt 16 off8.toInt) := by
    rw [value8, hshort, if_neg Bool.false_ne_true]
  obtain ⟨u, hu, -, -, htaken, hnot, -⟩ := (conditional_of_condJump hmk t off8).1 hok
  rw [hc, JumpsTo, hval] at htaken
  rw [hc] at hnot
  refine ⟨u, hu, fun hr => htaken (congrArg _ (hrel.1 hr)), fun hr => hnot (congrArg _ ?_)⟩
  exact Bool.eq_false_iff.2 fun h => hr (hrel.2 h)

/-- Settles O51: after CMP each jump's condition is decided by the comparison, and it is the relation in its name. -/
theorem compareThenBranchDecidesTheRelation : Obligations.CompareThenBranchDecidesTheRelation := by
  intro s ra rb a b off8 ha hb
  let t := (s.setArithFlags (.defined (subOut a b true))).advance
  have hcmp : exec (.cmp ra rb) s = .next t := by
    show execCmp ra rb s = _
    rw [execCmp, ha, hb]; rfl
  have hflags : t.HoldsComparison a b := holdsComparison_cmp s a b
  refine ⟨t, hcmp, fun mk rel h => ?_⟩
  rw [← pcPlus_of_pc_eq (s := s) (t := t) rfl]
  have negated {cond : Content Bool} {c : Bool} : cond = .defined c → cond.map (!·) = .defined !c :=
    congrArg (Content.map (!·))
  rcases h with ⟨rfl, h⟩ | ⟨rfl, h⟩ | ⟨rfl, h⟩ | ⟨rfl, h⟩ | ⟨rfl, h⟩ |
    ⟨rfl, h⟩ | ⟨rfl, h⟩ | ⟨rfl, h⟩ | ⟨rfl, h⟩ | ⟨rfl, h⟩
  -- JE, JNE
  · exact branch_decides off8 (fun _ _ => rfl) rfl hflags.equal (by simpa using h)
  · exact branch_decides off8 (fun _ _ => rfl) rfl (negated hflags.equal) (by simpa using h)
  -- JULT, JUGE, JUGT, JULE
  · exact branch_decides off8 (fun _ _ => rfl) rfl (negated hflags.unsignedGe) (by simpa using h)
  · exact branch_decides off8 (fun _ _ => rfl) rfl hflags.unsignedGe (by simpa using h)
  · exact branch_decides off8 (fun _ _ => rfl) rfl (negated hflags.unsignedLe) (by simpa using h)
  · exact branch_decides off8 (fun _ _ => rfl) rfl hflags.unsignedLe (by simpa using h)
  -- JSLT, JSGE, JSGT, JSLE
  · exact branch_decides off8 (fun _ _ => rfl) rfl hflags.signedLt (by simpa using h)
  · exact branch_decides off8 (fun _ _ => rfl) rfl (negated hflags.signedLt) (by simpa using h)
  · exact branch_decides off8 (fun _ _ => rfl) rfl (negated hflags.signedLe) (by simpa using h)
  · exact branch_decides off8 (fun _ _ => rfl) rfl hflags.signedLe (by simpa using h)

end Sys2Proof.Machine
end

section
/-! PROOF. The register window there and back (41_window.md). LDW and XCHW leave the old W in a register of the new
window, so a second window instruction on that register finds its way back (R142 to R144). -/

namespace Sys2Proof.Machine

open Sys2Proof.Claims

section Meanings

variable {s : State} {rd rb : RegNum} {imm5 : BitVec 5} {d v : Word}

theorem exec_ldw_next (hf : Field5Ok s imm5) (hd : value5 s imm5 = .defined d) (h8 : d.toNat % 8 = 0) :
    exec (.ldw rd imm5) s = .next (s.exchangeWindow (s.w + d) rd).advance := by
  show execLdw rd imm5 s = _
  rw [execLdw, State.operand5_ok hf, withOperand_ok, windowValue_ok hd h8, withOperand_ok]

theorem exec_stw_next (hv : s.reg rb = .defined v) (h8 : v.toNat % 8 = 0) :
    exec (.stw rb) s = .next (s.setWindow v).advance := by
  show execStw rb s = _
  rw [execStw, windowValue_ok hv h8, withOperand_ok]

theorem exec_xchw_next (hv : s.reg rb = .defined v) (h8 : v.toNat % 8 = 0) :
    exec (.xchw rd rb) s = .next (s.exchangeWindow v rd).advance := by
  show execXchw rd rb s = _
  rw [execXchw, windowValue_ok hv h8, withOperand_ok]

end Meanings

/-- R26, R142: the address of Rd in the window that `d` moves to. -/
theorem regAddr_setWindow_add (s : State) (d : Word) (rd : RegNum) :
    (s.setWindow (s.w + d)).regAddr rd = BitVec.ofNat 16 (s.w.toNat + d.toNat + rd.toNat) := by
  rw [State.regAddr_eq]
  apply BitVec.eq_of_toNat_eq
  simp

/-- Of two words written one after the other, the second with what it held at first, only the first has changed. -/
theorem sameMemoryExcept_of_restored {s t u : State} {a c : Word} (hst : SameMemoryExcept s t a)
    (htu : SameMemoryExcept t u c) (hc : u.memRead c = s.memRead c) : SameMemoryExcept s u a := by
  intro b hb
  by_cases hbc : b = c
  · rw [hbc, hc]
  · exact (htu b hbc).trans (hst b hb)

/-- Settles O34: LDW leaves the old W in Rd of the new window, where STW finds it; STW writes no word. -/
theorem stwUndoesLdw : Obligations.StwUndoesLdw := by
  intro s rd imm5 d hw hf hd h8
  let t := (s.exchangeWindow (s.w + d) rd).advance
  have hldw : exec (.ldw rd imm5) s = .next t := exec_ldw_next hf hd h8
  obtain ⟨hlink, -⟩ := s.exchangeWindow_frame (s.w + d) rd
  have hstw : exec (.stw rd) t = .next (t.setWindow s.w).advance := exec_stw_next hlink hw
  have hmem : SameMemoryExcept s t ((s.setWindow (s.w + d)).regAddr rd) :=
    (Completion.exchangeWindow (s.w + d) rd (add_aligned h8)).sameMemoryExcept
  rw [regAddr_setWindow_add] at hmem
  refine ⟨(t.setWindow s.w).advance, ?_, rfl, hmem⟩
  rw [execAll_cons_of_next _ hldw, execAll_singleton, hstw]

/-- Settles O35: the second XCHW reads the old W where the first has left it, and writes back to the old window's Rn
the value `v` it held. -/
theorem xchwTwiceReturns : Obligations.XchwTwiceReturns := by
  intro s r v hw hv h8
  let t := (s.exchangeWindow v r).advance
  let u := (t.exchangeWindow s.w r).advance
  obtain ⟨hlink, hst⟩ := s.exchangeWindow_frame v r
  obtain ⟨hback, htu⟩ := t.exchangeWindow_frame s.w r
  rw [← s.regAddr_eq r] at htu
  have hrestored : u.memRead (s.regAddr r) = s.memRead (s.regAddr r) := Eq.trans hback hv.symm
  exact ⟨t, u, exec_xchw_next hv h8, exec_xchw_next hlink hw, rfl, rfl, hback,
    sameMemoryExcept_of_restored hst htu hrestored⟩

end Sys2Proof.Machine
end

section
/-! PROOF. EXTI and the PC-relative move (42_exti_moves.md). Both have the end of their family, which says what they
leave as it was (R34). -/

namespace Sys2Proof.Machine

open Sys2Proof.Claims

/-- R150: EXTI reads nothing, so it runs in every state, one whose has_ext13 is set among them. -/
theorem exec_exti_next (e : BitVec 13) (s : State) : exec (.exti e) s = .next (s.extend e) := rfl

/-- R151, R152: an end of the move family that writes `v` writes no other word and keeps the flags. -/
theorem State.setReg_advance_frame (s : State) (rd : RegNum) (v : Content Word) :
    WritesRegister s (s.setReg rd v).advance rd v ∧ SameFlags s (s.setReg rd v).advance ∧
      (s.setReg rd v).advance.pc = pcPlus s 1 := by
  have hend := Completion.move (s := s) rd v
  exact ⟨s.setReg_advance rd v, hend.sameFlags nofun nofun nofun nofun, hend.pc_eq nofun nofun⟩

/-- Settles O37: the end of EXTI sets the extension and PC, and keeps the rest. -/
theorem extiSetsTheExtension : Obligations.ExtiSetsTheExtension := by
  intro s imm13
  have hend := Completion.exti (s := s) imm13
  exact ⟨isWordOf_encode rfl, s.extend imm13, exec_exti_next imm13 s, s.extend_ext13 imm13, s.extend_hasExt13 imm13,
    hend.pc_eq nofun nofun, hend.w_eq nofun, hend.sameMemory, hend.sameFlags nofun nofun nofun nofun,
    s.extend_extTrace imm13⟩

/-- Settles O39: an allowed field is the offset of R86, MOVR writes the sum PC-relative addressing makes of it, and
any other field is the one fault of R87. -/
theorem movrLoadsAnAddress : Obligations.MovrLoadsAnAddress := by
  intro s rd off8
  refine ⟨isWordOf_encode rfl, completesUnless8 fun _ => ⟨_, rfl, ?_⟩⟩
  rw [s.pcRelative_eq]
  exact s.setReg_advance_frame rd _

end Sys2Proof.Machine
end

section
/-! PROOF. J, JN and the signed comparison jumps (43_jumps.md, the table of conditions). Each is a conditional jump; J
and JN are the two whose condition reads no flag. -/

namespace Sys2Proof.Machine

open Sys2Proof.Claims

/-! ## The signed conditions and their negations (R176 to R179) -/

/-- JSGE is taken where S and V agree. -/
theorem State.not_condSignedLt (s : State) :
    s.condSignedLt.map (!·) = Content.map₂ (fun n v => n == v) s.flagS s.flagV := by
  have hnot : ∀ n v : Bool, (!(n ^^ v)) = (n == v) := by decide
  simp only [State.condSignedLt, Content.map_map₂, hnot]

/-- JSGT is taken where S and V agree and the two operands were not equal. -/
theorem State.not_condSignedLe (s : State) :
    s.condSignedLe.map (!·) = Content.map₃ (fun n v z => n == v && !z) s.flagS s.flagV s.flagZ := by
  have hnot : ∀ n v z : Bool, (!((n ^^ v) || z)) = (n == v && !z) := by decide
  simp only [State.condSignedLe, Content.map_map₃, hnot]

/-- Settles O48: JSLT and JSLE jump on the model's own conditions, JSGE and JSGT on their negations. -/
theorem jumpsOnSignedComparisons : Obligations.JumpsOnSignedComparisons := by
  refine ⟨?jsge, ?jslt, ?jsgt, ?jsle, fun off8 => ?words⟩
  case jsge => exact conditional_of_condJump fun s off8 => congrArg (condJump · off8 s) s.not_condSignedLt
  case jsgt => exact conditional_of_condJump fun s off8 => congrArg (condJump · off8 s) s.not_condSignedLe
  case jslt | jsle => exact conditional_of_condJump fun _ _ => rfl
  case words => exact ⟨isWordOf_encode rfl, isWordOf_encode rfl, isWordOf_encode rfl, isWordOf_encode rfl⟩

/-! ## The jumps that read no flag -/

/-- R162: J is the conditional jump that is always taken. -/
theorem exec_j_eq_condJump (s : State) (off8 : BitVec 8) : exec (.j off8) s = condJump (.defined true) off8 s := rfl

/-- R166: JN is the conditional jump that is never taken, with the restriction of the others. -/
theorem exec_jn_eq_condJump (s : State) (off8 : BitVec 8) : exec (.jn off8) s = condJump (.defined false) off8 s := rfl

/-- Settles O50: the branch of a constant condition is the end of J or of JN. -/
theorem jumpAlwaysAndNever : Obligations.JumpAlwaysAndNever :=
  ⟨conditional_of_condJump exec_j_eq_condJump, conditional_of_condJump exec_jn_eq_condJump,
    fun _ => ⟨isWordOf_encode rfl, isWordOf_encode rfl⟩⟩

end Sys2Proof.Machine
end

section
/-! PROOF. Call and return (43_jumps.md). JAL leaves `pc + 1` in Rd and clears the extension, so JR with the field 0
reads it there in short form and adds nothing. -/

namespace Sys2Proof.Machine

open Sys2Proof.Claims

/-- R163: JAL with an allowed field completes with its link and its jump. -/
theorem exec_jal_next {s : State} {rd : RegNum} {f : BitVec 8} (h : Field8Ok s f) :
    exec (.jal rd f) s = .next ((s.link rd).jump (s.pcRelative (value8 s f))) := by
  show execJal rd f s = _
  rw [execJal, State.operand8_ok h, withOperand_ok]

/-- R173: JR with an allowed field jumps to Rs plus its offset. -/
theorem exec_jr_next {s : State} {rs : RegNum} {f : BitVec 5} (h : Field5Ok s f) :
    exec (.jr rs f) s = .next (s.jump (addWords (s.reg rs) (value5 s f))) := by
  show execJr rs f s = _
  rw [execJr, State.operand5_ok h, withOperand_ok, Content.map₂_add]

/-- R163, R174: the end of JAL and JRAL writes the return address to Rd and no other word. -/
theorem State.link_jump_frame (s : State) (rd : RegNum) (target : Content Word) :
    WritesRegister s ((s.link rd).jump target) rd (pcPlus s 1) ∧ SameFlags s ((s.link rd).jump target) := by
  have hend := Completion.link (s := s) rd target
  have hlink : ((s.link rd).jump target).reg rd = pcPlus s 1 := (s.reg_setReg_self rd s.nextPc).trans s.nextPc_eq
  exact ⟨⟨hlink, hend.sameMemoryExcept, hend.w_eq nofun, rfl, hend.extCleared nofun⟩,
    hend.sameFlags nofun nofun nofun nofun⟩

theorem addWords_zero (a : Content Word) : addWords a (.defined 0) = a := by
  rw [← Content.map₂_add]
  cases a <;> simp

/-- R173: in short form JR with the field 0 jumps to Rs itself. -/
theorem exec_jr_zero {s : State} (he : s.hasExt13 = false) (rs : RegNum) :
    exec (.jr rs 0#5) s = .next (s.jump (s.reg rs)) := by
  have hok : Field5Ok s 0#5 := fun _ => by decide
  have hval : value5 s 0#5 = .defined 0 := value5_short he (v := 0) rfl
  rw [exec_jr_next hok, hval, addWords_zero]

/-- Settles O55: JR finds the return address where the link of JAL has left it, and writes nothing but PC. -/
theorem callThenReturn : Obligations.CallThenReturn := by
  intro s rd off8 hok
  let t := (s.link rd).jump (s.pcRelative (value8 s off8))
  obtain ⟨hwrites, hflags⟩ := s.link_jump_frame rd (s.pcRelative (value8 s off8))
  have hlink : t.reg rd = pcPlus s 1 := hwrites.1
  have hret : exec (.jr rd 0#5) t = .next (t.jump (t.reg rd)) := exec_jr_zero rfl rd
  refine ⟨t.jump (t.reg rd), ?_, hlink, hflags, hwrites⟩
  rw [execAll_cons_of_next _ (exec_jal_next hok), execAll_singleton, hret]

end Sys2Proof.Machine
end

section
/-! PROOF. HALT (60_exceptions.md R259, 92_eei_decisions.md D18). The word 0xBFFF in short form is J with the offset -1, a
jump to itself, and J writes no word, so the state it leaves is halted again. -/

namespace Sys2Proof.Machine

open Sys2Proof.Claims

/-- D18: PC is defined, and 0xBFFF stands there outside the extension of an EXTI. -/
theorem State.halted_iff (s : State) :
    s.halted = true ↔ s.hasExt13 = false ∧ ∃ p, s.pc = .defined p ∧ s.memRead p = .defined 0xBFFF := by
  rw [State.halted, Bool.and_eq_true, Bool.not_eq_true', beq_iff_eq]
  cases s.pc <;> simp

/-- R53: at a defined PC and a defined word there nothing is drawn. -/
theorem State.fetch_eq {s : State} {p w : Word} (hpc : s.pc = .defined p) (hw : s.memRead p = .defined w) :
    s.fetch = w := by
  rw [State.fetch, State.fetchAddress, hpc, State.resolve_defined, hw, State.resolve_defined]

theorem decode_halt : decode 0xBFFF = .ok (.j 0xFF#8) := decode_encode (.j 0xFF#8)

/-- R160: the offset -1 leads back to the jump itself, also where PC is UNDEFINED. -/
theorem State.pcRelative_neg_one (s : State) : s.pcRelative (.defined 0xFFFF) = s.pc := by
  rw [State.pcRelative, State.nextPc]
  cases s.pc <;> simp [BitVec.add_assoc]

/-- R162: in short form J with the field 0xFF jumps to where it stands. -/
theorem exec_j_self {s : State} (he : s.hasExt13 = false) : exec (.j 0xFF#8) s = .next (s.jump s.pc) := by
  have hok : Field8Ok s 0xFF#8 := fun hl => absurd (he.symm.trans hl) Bool.false_ne_true
  have hval : value8 s 0xFF#8 = .defined 0xFFFF := value8_short he (v := 0xFFFF) rfl
  rw [exec_j_next hok, hval, State.pcRelative_neg_one]

/-- Settles O56: a halted state fetches the jump to itself, which keeps all that makes it halted. -/
theorem haltedStateStaysHalted : Obligations.HaltedStateStaysHalted := by
  intro s h
  obtain ⟨he, p, hpc, hw⟩ := s.halted_iff.1 h
  have hdecode : decode s.fetch = .ok (.j 0xFF#8) := by rw [State.fetch_eq hpc hw, decode_halt]
  have hend := Completion.jump (s := s) s.pc
  refine ⟨s.jump s.pc, (step_of_decode_ok hdecode).trans (exec_j_self he), ?_, rfl,
    hend.sameFlags nofun nofun nofun nofun, hend.sameMemory, hend.w_eq nofun, rfl, hend.extCleared nofun⟩
  exact (s.jump s.pc).halted_iff.2 ⟨rfl, p, hpc, hw⟩

end Sys2Proof.Machine
end

section
/-! PROOF. The shifts and rotates (45_shift_rotate.md). The register forms are one shared operation and the immediate
forms another, and the eight differ in the word operation alone. Either takes a defined amount of 0 to 15, ends as a
logical instruction does with the value R220 gives, and stops on any other amount. -/

namespace Sys2Proof.Machine

open Sys2Proof.Claims

/-! ## The shared operations, with the amount they have -/

section Operations

variable {s : State} {rd ra rb : RegNum} {imm3 : BitVec 3} {n : Word} {f : Word → Nat → Word} {g : Word → Word}

/-- R220: a register form with an amount of 0 to 15, where its word operation is `g`. -/
theorem shiftReg_next (hf : ∀ x : Word, f x n.toNat = g x) (hb : s.reg rb = .defined n) (hn : n.toNat ≤ 15) :
    shiftReg f rd ra rb s = .next (s.finishLogic rd ((s.reg ra).map g)) := by
  rw [shiftReg, shiftAmount_ok hb hn, withOperand_ok, funext hf]

/-- R220: an immediate form with an amount of 0 to 15, where its word operation is `g`. -/
theorem shiftImm_next (hf : ∀ x : Word, f x n.toNat = g x) (hv : shiftValue s imm3 = .defined n)
    (hn : n.toNat ≤ 15) : shiftImm f rd ra imm3 s = .next (s.finishLogic rd ((s.reg ra).map g)) := by
  rw [shiftImm, State.shiftOperand_eq, shiftAmount_ok hv hn, withOperand_ok, funext hf]

/-- R220: a register form stops on an amount that is not surely 0 to 15, whatever its word operation. -/
theorem shiftReg_above15 (f : Word → Nat → Word) (h : ¬ Surely (s.reg rb) (· ≤ 15)) :
    shiftReg f rd ra rb s = .fault .shiftAmountAbove15 := by
  rw [shiftReg, shiftAmount_bad h, withOperand_error]

/-- R220, D17, D19: an immediate form stops on an amount that is not surely 0 to 15, whatever its word operation. -/
theorem shiftImm_above15 (f : Word → Nat → Word) (h : ¬ Surely (shiftValue s imm3) (· ≤ 15)) :
    shiftImm f rd ra imm3 s = .fault .shiftAmountAbove15 := by
  rw [shiftImm, State.shiftOperand_eq, shiftAmount_bad h, withOperand_error]

end Operations

/-- A defined content that lacks a property does not surely have it. -/
theorem not_surely_of_defined {c : Content Word} {p : Nat → Prop} {n : Word} (hc : c = .defined n)
    (hp : ¬ p n.toNat) : ¬ Surely c p := by
  rintro ⟨v, hv, hpv⟩
  obtain rfl : n = v := Content.defined.inj (hc.symm.trans hv)
  exact hp hpv

/-! ## The statements -/

/-- Settles O30: the four are one operation on registers, each with its own word operation. -/
theorem shiftsByRegister : Obligations.ShiftsByRegister := by
  intro s rd ra rb
  refine ⟨isWordOf_encode rfl, isWordOf_encode rfl, isWordOf_encode rfl, isWordOf_encode rfl,
    fun n hb hn => ⟨?sll, ?rol, ?srl, ?sra⟩, fun n hb hn => ?above15⟩
  case sll => exact completes_with_logic (shiftReg_next (fun x => shiftLeft_eq x n.toNat) hb hn)
  case rol => exact completes_with_logic (shiftReg_next (fun x => rotateLeft_eq x hn) hb hn)
  case srl => exact completes_with_logic (shiftReg_next (fun x => shiftRight_eq x n.toNat) hb hn)
  case sra => exact completes_with_logic (shiftReg_next (fun x => shiftRightArith_eq x hn) hb hn)
  case above15 =>
    have h : ¬ Surely (s.reg rb) (· ≤ 15) := not_surely_of_defined hb (Nat.not_le.2 hn)
    exact ⟨shiftReg_above15 shiftLeft h, shiftReg_above15 rotateLeft h, shiftReg_above15 shiftRight h,
      shiftReg_above15 shiftRightArith h⟩

/-- Settles O31: the four are one operation on a register and the amount of R220, each with the word operation of its
register form. -/
theorem shiftsByImmediate : Obligations.ShiftsByImmediate := by
  intro s rd ra imm3
  refine ⟨isWordOf_encode rfl, isWordOf_encode rfl, isWordOf_encode rfl, isWordOf_encode rfl,
    fun n hv hn => ⟨?slli, ?roli, ?srli, ?srai⟩, fun h => ?above15⟩
  case slli => exact completes_with_logic (exec_slli_next hv hn)
  case roli => exact completes_with_logic (shiftImm_next (fun x => rotateLeft_eq x hn) hv hn)
  case srli => exact completes_with_logic (shiftImm_next (fun x => shiftRight_eq x n.toNat) hv hn)
  case srai => exact completes_with_logic (shiftImm_next (fun x => shiftRightArith_eq x hn) hv hn)
  case above15 =>
    exact ⟨shiftImm_above15 shiftLeft h, shiftImm_above15 rotateLeft h, shiftImm_above15 shiftRight h,
      shiftImm_above15 shiftRightArith h⟩

end Sys2Proof.Machine
end

section
/-! PROOF. The pseudo-instructions (46_pseudo.md). Each does what the instructions it stands for do: MOV is an AND of a
word with itself, XCHG three XORs on the same two registers, and RORI a ROLI by what is left of 16. -/

namespace Sys2Proof.Machine

open Sys2Proof.Claims

/-! ## What they stand for -/

theorem Pseudo.expand_mov_of_ne {rd rs : RegNum} (h : rd ≠ rs) : (Pseudo.mov rd rs).expand = [.and rd rs rs] := if_neg h

theorem Pseudo.expand_xchg_of_ne {ra rb : RegNum} (h : ra ≠ rb) :
    (Pseudo.xchg ra rb).expand = [.xor ra ra rb, .xor rb rb ra, .xor ra ra rb] := if_neg h

/-- The amount of the ROLI that RORI by `n` stands for (R241). -/
def roriAmount (n : Fin 16) : Word := BitVec.ofNat 16 (if n.val = 0 then 0 else 16 - n.val)

theorem Pseudo.expand_rori (rd ra : RegNum) (n : Fin 16) :
    (Pseudo.rori rd ra n).expand = assembleShift (.roli rd ra) (roriAmount n) := rfl

/-! ## MOV -/

/-- R10, R116: a word is its own conjunction, and UNDEFINED stays UNDEFINED. -/
theorem Content.map₂_and_self (c : Content Word) : Content.map₂ (· &&& ·) c c = c := by
  cases c with
  | defined x => exact congrArg Content.defined BitVec.and_self
  | undefined => rfl

theorem exec_and_self (s : State) (rd rs : RegNum) :
    exec (.and rd rs rs) s = .next (s.finishLogic rd (s.reg rs)) := by
  show execAnd rd rs rs s = _
  rw [execAnd, logicReg, Content.map₂_and_self]

/-- Settles O57: two registers make one AND, whose end is a logical one with the word that Rs holds. -/
theorem movCopiesARegister : Obligations.MovCopiesARegister := by
  intro s rd rs
  refine ⟨fun h => if_pos h, fun hne => ⟨Pseudo.expand_mov_of_ne hne, completes_with_logic ?_⟩⟩
  rw [Pseudo.expand_mov_of_ne hne, execAll_singleton, exec_and_self]

/-! ## XCHG -/

theorem pcPlus_zero (s : State) : pcPlus s 0 = s.pc := by
  unfold pcPlus
  cases s.pc <;> simp

/-- One more instruction on, and that no jump (R22). -/
theorem pcPlus_succ {s t : State} {n : Nat} (h : t.pc = pcPlus s n) : pcPlus t 1 = pcPlus s (n + 1) := by
  rw [pcPlus, h, pcPlus, Content.map_map]
  refine congrArg (fun f => s.pc.map f) (funext fun p => BitVec.eq_of_toNat_eq ?_)
  simp [Nat.add_assoc]

/-- `t` is a state after `n` instructions from `s` that wrote no word but Ra and Rb, which now hold `a` and `b`. -/
structure State.ReachesPair (s : State) (ra rb : RegNum) (n : Nat) (a b : Word) (t : State) : Prop where
  left : t.reg ra = .defined a
  right : t.reg rb = .defined b
  pc : t.pc = pcPlus s n
  memory : ∀ x, x ≠ s.regAddr ra → x ≠ s.regAddr rb → t.memRead x = s.memRead x
  window : t.w = s.w
  bus : NoBusCycle s t

namespace State.ReachesPair

variable {s t : State} {ra rb : RegNum} {n : Nat} {a b c : Word}

theorem start (ha : s.reg ra = .defined a) (hb : s.reg rb = .defined b) : s.ReachesPair ra rb 0 a b s where
  left := ha
  right := hb
  pc := (pcPlus_zero s).symm
  memory _ _ _ := rfl
  window := rfl
  bus := rfl

theorem symm (h : s.ReachesPair ra rb n a b t) : s.ReachesPair rb ra n b a t where
  left := h.right
  right := h.left
  pc := h.pc
  memory x hb ha := h.memory x ha hb
  window := h.window
  bus := h.bus

/-- A logical end on Ra, a register other than Rb, replaces the first of the two words. -/
theorem finishLogic (h : s.ReachesPair ra rb n a b t) (hne : ra ≠ rb) (c : Word) :
    s.ReachesPair ra rb (n + 1) c b (t.finishLogic ra (.defined c)) := by
  obtain ⟨hpc, hwrites, -⟩ := t.finishLogic_frame ra (.defined c)
  have haddr : t.regAddr ra = s.regAddr ra := by rw [State.regAddr, h.window, State.regAddr]
  have hother := (WritesRegister.reg hwrites rb).trans (if_neg hne.symm)
  obtain ⟨hreg, hmem, hw, hbus, -⟩ := hwrites
  exact {
    left := hreg
    right := hother.trans h.right
    pc := hpc.trans (pcPlus_succ h.pc)
    memory := fun x hxa hxb => (hmem x (haddr ▸ hxa)).trans (h.memory x hxa hxb)
    window := hw.trans h.window
    bus := Eq.trans hbus h.bus }

/-- R126: the XOR of the two words into the first register. -/
theorem exec_xor (h : s.ReachesPair ra rb n a b t) (hc : a ^^^ b = c) :
    exec (.xor ra ra rb) t = .next (t.finishLogic ra (.defined c)) := by
  show execXor ra ra rb t = _
  rw [execXor, logicReg, h.left, h.right, Content.map₂_defined, hc]

end State.ReachesPair

/-- Settles O58: the two registers hold in turn a, b; a xor b, b; a xor b, a; and b, a. -/
theorem xchgExchangesTwoRegisters : Obligations.XchgExchangesTwoRegisters := by
  intro s ra rb a b
  refine ⟨fun h => if_pos h, Pseudo.expand_xchg_of_ne, fun hne ha hb => ?_⟩
  let t₁ := s.finishLogic ra (.defined (a ^^^ b))
  let t₂ := t₁.finishLogic rb (.defined a)
  let t₃ := t₂.finishLogic ra (.defined b)
  have h₀ : s.ReachesPair ra rb 0 a b s := .start ha hb
  have h₁ : s.ReachesPair ra rb 1 (a ^^^ b) b t₁ := h₀.finishLogic hne _
  have h₂ : s.ReachesPair ra rb 2 (a ^^^ b) a t₂ := (h₁.symm.finishLogic hne.symm a).symm
  have h₃ : s.ReachesPair ra rb 3 b a t₃ := h₂.finishLogic hne b
  have hrun : execAll (Pseudo.xchg ra rb).expand s = .next t₃ := by
    rw [Pseudo.expand_xchg_of_ne hne, execAll_cons_of_next _ (h₀.exec_xor rfl),
      execAll_cons_of_next _ (h₁.symm.exec_xor (xor_xor_cancel_comm_assoc b a)), execAll_singleton,
      h₂.exec_xor (xor_xor_cancel_comm a b)]
  obtain ⟨-, ⟨-, -, -, -, hext⟩, hflags⟩ := t₂.finishLogic_frame ra (.defined b)
  exact ⟨t₃, hrun, h₃.pc, h₃.left, h₃.right, hflags, h₃.memory, h₃.window, h₃.bus, hext⟩

/-! ## RORI -/

/-- R94, D22: the count of words the assembler makes of a shift or rotate immediate. -/
theorem assembleShift_length (mk : BitVec 3 → Instr) (v : Word) :
    (assembleShift mk v).length = if 1 ≤ v.toNat ∧ v.toNat ≤ 8 then 1 else 2 := by
  unfold assembleShift
  split <;> rfl

/-- R94, R220: an assembled shift or rotate immediate ends in either form as a logical instruction does, with the
value its word operation has for the amount. -/
theorem assembleShift_completes {s : State} (he : s.hasExt13 = false) {mk : BitVec 3 → Instr} {rd ra : RegNum}
    {v : Word} {f : Word → Nat → Word} {g : Word → Word}
    (hmk : ∀ (u : State) (imm3 : BitVec 3), exec (mk imm3) u = shiftImm f rd ra imm3 u)
    (hf : ∀ x : Word, f x v.toNat = g x) (hv : v.toNat ≤ 15) :
    ∃ t, execAll (assembleShift mk v) s = .next t ∧ WritesRegister s t rd ((s.reg ra).map g) ∧
      LogicFlags t ((s.reg ra).map g) := by
  obtain ⟨u, imm3, hrun, hu, hval⟩ := assembleShift_reaches he v mk
  have hext := upToExti_of_exec hu
  obtain ⟨-, hreg, hflags⟩ := u.finishLogic_frame rd ((u.reg ra).map g)
  rw [← hext.reg_eq]
  exact ⟨_, hrun.trans ((hmk u imm3).trans (shiftImm_next hf hval hv)), hext.writesRegister hreg, hflags⟩

theorem roriAmount_toNat (n : Fin 16) : (roriAmount n).toNat = if n.val = 0 then 0 else 16 - n.val := by
  rw [roriAmount, BitVec.toNat_ofNat]
  split <;> omega

/-- R9: the short form of ROLI reaches the amounts 1 to 8, those of RORI by 8 to 15. -/
theorem roriAmount_short_iff (n : Fin 16) :
    1 ≤ (roriAmount n).toNat ∧ (roriAmount n).toNat ≤ 8 ↔ 8 ≤ n.val := by
  rw [roriAmount_toNat]
  split <;> omega

/-- Rotating left by what is left of 16 is rotating right (R241). -/
theorem rolWord_roriAmount (n : Fin 16) (x : Word) : rolWord (roriAmount n).toNat x =
    BitVec.ofNat 16 (x.toNat / 2 ^ n.val + x.toNat * 2 ^ (16 - n.val) % 65536) := by
  rw [roriAmount_toNat]
  by_cases hn : n.val = 0
  · simp [hn, rolWord]
  · have hpos : 16 - n.val ≠ 0 := by omega
    have hback : 16 - (16 - n.val) = n.val := by omega
    rw [if_neg hn, rolWord, if_neg hpos, hback, Nat.add_comm]

/-- Settles O59: ROLI is reached by the form its amount has, and rotates right by `n`. -/
theorem roriRotatesRight : Obligations.RoriRotatesRight := by
  intro s rd ra n he
  have hle : (roriAmount n).toNat ≤ 15 := by rw [roriAmount_toNat]; split <;> omega
  have hrotate (x : Word) : rotateLeft x (roriAmount n).toNat =
      BitVec.ofNat 16 (x.toNat / 2 ^ n.val + x.toNat * 2 ^ (16 - n.val) % 65536) :=
    (rotateLeft_eq x hle).trans (rolWord_roriAmount n x)
  rw [Pseudo.expand_rori]
  refine ⟨?_, assembleShift_completes he (fun _ _ => rfl) hrotate hle⟩
  simp only [assembleShift_length, roriAmount_short_iff]

end Sys2Proof.Machine
end

section
/-! PROOF. The external bus and the counter of draws (20_memory.md R52, R57; 92_eei_decisions.md D2, D8). Two ends of
instructions add a cycle to the record of the bus, each one of its own kind, and every end moves the counter by one. -/

namespace Sys2Proof.Machine

open Sys2Proof.Claims

namespace Completion

variable {s t : State} {fam : Family} {written : Option Word}

/-- R203, R204. -/
theorem extTrace_busLoad (h : Completion s fam written t) (hf : fam = .busLoad) :
    ∃ a v, t.extTrace = s.extTrace ++ [.read a v] := by
  subst hf
  cases h with
  | busLoad rd addr => exact ⟨_, _, (s.finishExtLoad_frame rd addr).1⟩

/-- R207, R208. -/
theorem extTrace_busStore (h : Completion s fam written t) (hf : fam = .busStore) :
    ∃ a v, t.extTrace = s.extTrace ++ [.write a v] := by
  subst hf
  cases h with
  | busStore rs addr => exact ⟨_, _, s.extWrite_extTrace _ _⟩

/-- R52: the other ends stay within the machine. -/
theorem noBusCycle (h : Completion s fam written t) (hl : fam ≠ .busLoad) (hs : fam ≠ .busStore) :
    NoBusCycle s t := by
  cases h with
  | busLoad => exact absurd rfl hl
  | busStore => exact absurd rfl hs
  | _ => rfl

/-- D2: the draws of the next instruction are numbered anew. -/
theorem drawIndex_eq (h : Completion s fam written t) : t.drawIndex = s.drawIndex + 1 := by
  cases h <;> rfl

end Completion

/-- Settles O13: the family of an instruction decides whether its end adds a cycle, and of which kind. -/
theorem busCyclesAreOnePerBusInstruction : Obligations.BusCyclesAreOnePerBusInstruction :=
  fun _ _ _ h => ⟨(exec_completion h).extTrace_busLoad, (exec_completion h).extTrace_busStore,
    (exec_completion h).noBusCycle⟩

/-- Settles O15: every end, EXTI's among them, moves the counter. -/
theorem everyInstructionDrawsAnew : Obligations.EveryInstructionDrawsAnew :=
  fun _ _ _ h => (exec_completion h).drawIndex_eq

end Sys2Proof.Machine
end

section
/-! PROOF. Reset and the canonical form of memory (10_state.md R27, R40; 20_memory.md R50, R66). A memory in canonical
form starts at the first address it defines, so two that read alike start with the same cell, and go on alike. -/

namespace Sys2Proof.Machine

/-! ## Memory is what it reads -/

theorem Memory.wfFrom_cons {lo a : Nat} {v : Word} {m : Memory} :
    Memory.wfFrom lo ((a, v) :: m) = true ↔ lo ≤ a ∧ a < 65536 ∧ Memory.wfFrom (a + 1) m = true := by
  simp only [Memory.wfFrom, Bool.and_eq_true, decide_eq_true_eq, and_assoc]

theorem Memory.lookup_head (a : Nat) (v : Word) (m : Memory) : Memory.lookup ((a, v) :: m) a = .defined v :=
  if_pos rfl

theorem Memory.lookup_tail {a b : Nat} (v : Word) (m : Memory) (h : a ≠ b) :
    Memory.lookup ((a, v) :: m) b = m.lookup b :=
  if_neg h

/-- A memory in canonical form defines no address below its first one. -/
theorem Memory.le_of_lookup_eq_defined {m : Memory} {lo a : Nat} {v : Word} (hm : Memory.wfFrom lo m = true)
    (h : m.lookup a = .defined v) : lo ≤ a := by
  by_contra hlt
  rw [Memory.lookup_lt_eq_undefined hm (Nat.not_le.1 hlt)] at h
  exact nomatch h

/-- The first cell of the one memory is listed in the other, so neither of the two can start before the other. -/
theorem Memory.eq_of_lookup_eq {m n : Memory} {lo : Nat} (hm : Memory.wfFrom lo m = true)
    (hn : Memory.wfFrom lo n = true) (h : ∀ a < 65536, m.lookup a = n.lookup a) : m = n := by
  induction m generalizing n lo with
  | nil =>
    cases n with
    | nil => rfl
    | cons d n =>
      obtain ⟨b, v⟩ := d
      obtain ⟨-, hb, -⟩ := Memory.wfFrom_cons.1 hn
      exact nomatch (h b hb).trans (Memory.lookup_head b v n)
  | cons c m ih =>
    obtain ⟨a, u⟩ := c
    obtain ⟨hlo, ha, hm'⟩ := Memory.wfFrom_cons.1 hm
    cases n with
    | nil => exact nomatch (h a ha).symm.trans (Memory.lookup_head a u m)
    | cons d n =>
      obtain ⟨b, v⟩ := d
      obtain ⟨-, hb, hn'⟩ := Memory.wfFrom_cons.1 hn
      have hba : b ≤ a := Memory.le_of_lookup_eq_defined (Memory.wfFrom_cons.2 ⟨Nat.le_refl b, hb, hn'⟩)
        ((h a ha).symm.trans (Memory.lookup_head a u m))
      have hab : a ≤ b := Memory.le_of_lookup_eq_defined (Memory.wfFrom_cons.2 ⟨Nat.le_refl a, ha, hm'⟩)
        ((h b hb).trans (Memory.lookup_head b v n))
      obtain rfl : a = b := Nat.le_antisymm hab hba
      have hhead := h a ha
      rw [Memory.lookup_head, Memory.lookup_head] at hhead
      obtain rfl : u = v := Content.defined.inj hhead
      have htail : m = n := by
        refine ih hm' hn' fun k hk => ?_
        by_cases hak : a = k
        · -- the cells after the first all stand above it
          subst hak
          rw [Memory.lookup_lt_eq_undefined hm' (Nat.lt_succ_self a),
            Memory.lookup_lt_eq_undefined hn' (Nat.lt_succ_self a)]
        · rw [← Memory.lookup_tail u m hak, h k hk, Memory.lookup_tail u n hak]
      rw [htail]

/-- Settles O19: a word is an address below 65536, so the two memories agree at all of those. -/
theorem canonicalMemoryIsWhatItReads : Obligations.CanonicalMemoryIsWhatItReads := by
  intro m n hm hn h
  refine Memory.eq_of_lookup_eq hm hn fun a ha => ?_
  have hword := h (BitVec.ofNat 16 a)
  rwa [BitVec.toNat_ofNat, Nat.mod_eq_of_lt ha] at hword

/-! ## Reset -/

/-- R40, D5: no word of `mem` is listed after reset. -/
theorem State.reset_memRead (a : Word) : State.reset.memRead a = .undefined := rfl

/-- Settles O16: the fields of the reset state, and the empty memory. -/
theorem resetState : Obligations.ResetState :=
  ⟨rfl, rfl, rfl, rfl, rfl, rfl, rfl, rfl, State.reset_memRead⟩

/-- Settles O17: memory is empty, W is 0xFFF8, and neither half of the extension is set. -/
theorem resetMeetsTheInvariant : Obligations.ResetMeetsTheInvariant :=
  ⟨State.reset_mem_wf, rfl, rfl⟩

/-! ## The aligned window -/

/-- Settles O36: the highest multiple of 8 is 0xFFF8, which leaves room for seven more words. -/
theorem alignedWindowDoesNotWrap : Obligations.AlignedWindowDoesNotWrap := by
  intro s r h
  have hw := s.w.isLt; have hr := r.isLt
  rw [State.regAddr_eq, BitVec.toNat_ofNat]
  omega

end Sys2Proof.Machine
end

section
/-! PROOF. The words that are no instruction (30_encoding.md R88) and the conditions an instruction stops in
(60_exceptions.md R251). The decoder rejects by its parts: each part rejects the constant bits of its own rows. A
meaning has one operand that can be refused, so it stops exactly where that operand is, and each kind of operand has
its one condition of the list. -/

namespace Sys2Proof.Machine

open Sys2Proof.Claims

/-! ## The rejects of each part of the decoder -/

/-- No instruction is decoded. -/
def Rejected (r : Except Reject Instr) : Prop := ∀ i, r ≠ .ok i

theorem rejected_ok (i : Instr) : Rejected (.ok i) ↔ False :=
  iff_of_false (fun h => h i rfl) id

theorem rejected_error (e : Reject) : Rejected (.error e) ↔ True :=
  iff_of_true nofun trivial

/-- A test of constant bits rejects where it fails. -/
theorem rejected_ite {c : Prop} [Decidable c] (i : Instr) (e : Reject) :
    Rejected (if c then .ok i else .error e) ↔ ¬ c := by
  by_cases hc : c
  · rw [if_pos hc, rejected_ok]; exact iff_of_false id fun h => h hc
  · rw [if_neg hc, rejected_error]; exact iff_of_true trivial hc

theorem field_ne_zero {n : Nat} (x : BitVec n) : x ≠ 0#n ↔ x.toNat ≠ 0 := by
  rw [BitVec.toNat_ne, BitVec.toNat_ofNat, Nat.zero_mod]

theorem rejected_ite_zero (rd : RegNum) (i : Instr) (e : Reject) :
    Rejected (if rd = 0#3 then .ok i else .error e) ↔ rd.toNat ≠ 0 :=
  (rejected_ite i e).trans (field_ne_zero rd)

/-- R83: opcode 00000 rejects a CMP with a destination. -/
theorem rejected_decodeLogic (ty : BitVec 2) (rd ra rb : RegNum) :
    Rejected (decodeLogic ty rd ra rb) ↔ ty.toNat = 3 ∧ rd.toNat ≠ 0 := by
  rcases type_cases ty with rfl | rfl | rfl | rfl
  case inr.inr.inr => exact (rejected_ite_zero rd _ _).trans (iff_and_self.2 fun _ => rfl)
  all_goals exact (rejected_ok _).trans (by simp)

/-- R83: opcode 00001 rejects a CMPI with a destination. -/
theorem rejected_decodeLogicImm (ty : BitVec 2) (rd ra : RegNum) (imm3 : BitVec 3) :
    Rejected (decodeLogicImm ty rd ra imm3) ↔ ty.toNat = 3 ∧ rd.toNat ≠ 0 := by
  rcases type_cases ty with rfl | rfl | rfl | rfl
  case inr.inr.inr => exact (rejected_ite_zero rd _ _).trans (iff_and_self.2 fun _ => rfl)
  all_goals exact (rejected_ok _).trans (by simp)

/-- R84: opcode 10100 rejects STW, XCHW, ADJW and JRAL with other constant bits. -/
theorem rejected_decodeWindow (sub : BitVec 3) (rsd : RegNum) (low : BitVec 5) :
    Rejected (decodeWindow sub rsd low) ↔
      (sub.toNat = 0 ∧ rsd.toNat ≠ 0) ∨ (sub.toNat = 0 ∧ (low.extractLsb' 3 2).toNat ≠ 0) ∨
      (sub.toNat = 1 ∧ (low.extractLsb' 3 2).toNat ≠ 0) ∨ (sub.toNat = 2 ∧ rsd.toNat ≠ 0) ∨
      (sub.toNat = 5 ∧ (low.extractLsb' 3 2).toNat ≠ 0) := by
  simp only [← field_ne_zero]
  unfold decodeWindow
  dsimp only
  split
  case h_1 h | h_2 h | h_3 h | h_6 h => simp [rejected_ite, h, imp_iff_not_or]
  case h_4 h | h_5 h | h_7 h => simp [rejected_ok, h]
  case h_8 h => simp_all [rejected_ok]

/-! ## The statements about the decoder and the step -/

theorem rejected_decode_iff (w : Word) : Rejected (decode w) ↔ NotPresent w := by
  unfold decode NotPresent
  dsimp only
  split
  case h_1 hop => simp [hop, rejected_decodeLogic]
  case h_2 hop => simp [hop, rejected_decodeLogicImm]
  case h_17 hop => simp [hop, rejected_decodeWindow]
  case h_25 =>
    -- what is left of the 32 major opcodes
    have hlt := (w.extractLsb' 11 5).isLt
    generalize (w.extractLsb' 11 5).toNat = op at *
    have hmajor : (op = 6 ∨ op = 7) ∨ (op = 18 ∨ op = 19) ∨ 28 ≤ op := by
      simp only [imp_false] at *
      omega
    rw [rejected_error]
    exact iff_of_true trivial (hmajor.imp_right (Or.imp_right .inl))
  all_goals next hop => simp [hop, rejected_ok]

/-- Settles O3: the parts of the decoder reject the rows of the table, and the step stops on a rejected word. -/
theorem wordsNotPresentAreThePatternsOfTheTable : Obligations.WordsNotPresentAreThePatternsOfTheTable :=
  ⟨rejected_decode_iff, fun s h => step_of_decode_error ((rejected_decode_iff s.fetch).2 h)⟩

/-- Settles O6: the step is the meaning of what is decoded, and where nothing is drawn that is the word in `mem`. -/
theorem stepRunsTheDecodedInstruction : Obligations.StepRunsTheDecodedInstruction := by
  intro s i
  refine ⟨step_of_decode_ok, fun w hw hi => ?_⟩
  cases hpc : s.pc with
  | undefined => rw [hpc] at hw; exact nomatch hw
  | defined p =>
    rw [hpc] at hw
    have hfetch : s.fetch = w := State.fetch_eq hpc hw
    exact ⟨hfetch, step_of_decode_ok (hfetch ▸ hi)⟩

/-! ## Where each kind of operand is refused -/

theorem State.operand5_eq_error {s : State} {field : BitVec 5} {f : Fault} :
    s.operand5 field = .error f ↔ f = .longFormHighBits ∧ s.hasExt13 = true ∧ 8 ≤ field.toNat := by
  by_cases h : Field5Ok s field
  · rw [State.operand5_ok h]
    exact iff_of_false nofun fun ⟨_, he, hlt⟩ => Nat.not_lt.2 hlt (h he)
  · have hbad : s.hasExt13 = true ∧ 8 ≤ field.toNat := by simpa [Field5Ok] using h
    rw [State.operand5_bad h]
    simp [hbad, eq_comm]

theorem State.operand8_eq_error {s : State} {field : BitVec 8} {f : Fault} :
    s.operand8 field = .error f ↔ f = .longFormHighBits ∧ s.hasExt13 = true ∧ 8 ≤ field.toNat := by
  by_cases h : Field8Ok s field
  · rw [State.operand8_ok h]
    exact iff_of_false nofun fun ⟨_, he, hlt⟩ => Nat.not_lt.2 hlt (h he)
  · have hbad : s.hasExt13 = true ∧ 8 ≤ field.toNat := by simpa [Field8Ok] using h
    rw [State.operand8_bad h]
    simp [hbad, eq_comm]

theorem State.aluOperand_eq_error {s : State} {imm3 : BitVec 3} {f : Fault} :
    s.aluOperand imm3 = .error f ↔
      f = .immAl3Undefined ∧ s.hasExt13 = false ∧ imm3 = 3#3 ∧ Config.immAl3 = none := by
  by_cases h : AluFieldOk s imm3
  · rw [State.aluOperand_ok h]
    refine iff_of_false nofun ?_
    rintro ⟨-, he, rfl, -⟩
    simp [AluFieldOk, he] at h
  · obtain ⟨he, h3⟩ : s.hasExt13 = false ∧ imm3.toNat = 3 := by simpa [AluFieldOk] using h
    obtain rfl : imm3 = 3#3 := BitVec.eq_of_toNat_eq h3
    have hrow : s.aluOperand 3#3 = tableOperand Config.immAl3 := by rw [State.aluOperand, he]; rfl
    rw [hrow]
    cases Config.immAl3 <;> simp [tableOperand, he, eq_comm]

theorem shiftAmount_eq_error_iff {c : Content Word} {f : Fault} :
    shiftAmount c = .error f ↔ f = .shiftAmountAbove15 ∧ ¬ Surely c (· ≤ 15) :=
  shiftAmount_eq_error.trans (and_congr_right fun _ => by simp [Surely])

theorem windowValue_eq_error_iff {c : Content Word} {f : Fault} :
    windowValue c = .error f ↔ f = .windowNotMultipleOf8 ∧ ¬ Surely c (· % 8 = 0) :=
  windowValue_eq_error.trans (and_congr_right fun _ => by simp [Surely])

/-- A meaning with one operand stops where that is refused. -/
theorem withOperand_next_eq_fault {α : Type} {o : Except Fault α} {g : α → State} {f : Fault} :
    withOperand o (fun a => .next (g a)) = .fault f ↔ o = .error f := by
  cases o <;> simp

/-! ## The list of R251 -/

/-- `f` is the reason of a condition of the list that holds of `s` and `i`. -/
def StopsWith (s : State) (i : Instr) (f : Fault) : Prop :=
  (f = .longFormHighBits ∧ LongFormHighBits s i) ∨
  (f = .windowNotMultipleOf8 ∧ WindowNotMultipleOf8 s i) ∨
  (f = .shiftAmountAbove15 ∧ ShiftAmountAbove15 s i) ∨
  (f = .immAl3Undefined ∧ ImmAl3Undefined s i)

section Kinds

variable {s : State} {i : Instr} {f : Fault}

/-- The list with its conditions written out: all of them are about the field and the values with a restriction. -/
theorem stopsWith_iff : StopsWith s i f ↔
    (f = .longFormHighBits ∧ LongFormHighBits s i) ∨
    (f = .windowNotMultipleOf8 ∧ ¬ LongFormHighBits s i ∧ ∃ c, windowValueRead s i = some c ∧ ¬ Surely c (· % 8 = 0)) ∨
    (f = .shiftAmountAbove15 ∧ ∃ c, shiftAmountRead s i = some c ∧ ¬ Surely c (· ≤ 15)) ∨
    (f = .immAl3Undefined ∧ s.hasExt13 = false ∧ i.operandField = .alu 3#3 ∧ Config.immAl3 = none) := Iff.rfl

/-- No field and no value with a restriction: the instruction completes. -/
theorem exec_eq_fault_iff_of_none {t : State} (hexec : exec i s = .next t) (hfield : i.operandField = .none)
    (hwindow : windowValueRead s i = none) (hshift : shiftAmountRead s i = none) :
    exec i s = .fault f ↔ StopsWith s i f := by
  rw [hexec]
  simp [stopsWith_iff, LongFormHighBits, hfield, hwindow, hshift]

/-- R110, D14. -/
theorem exec_eq_fault_iff_of_alu {imm3 : BitVec 3} {g : Content Word → State}
    (hexec : exec i s = withOperand (s.aluOperand imm3) fun a => .next (g a)) (hfield : i.operandField = .alu imm3)
    (hwindow : windowValueRead s i = none) (hshift : shiftAmountRead s i = none) :
    exec i s = .fault f ↔ StopsWith s i f := by
  rw [hexec, withOperand_next_eq_fault, State.aluOperand_eq_error]
  simp [stopsWith_iff, LongFormHighBits, hfield, hwindow, hshift]

/-- R220, D17, D19. -/
theorem exec_eq_fault_iff_of_shift {c : Content Word} {g : Nat → State}
    (hexec : exec i s = withOperand (shiftAmount c) fun n => .next (g n))
    (hfield : i.operandField = .none ∨ ∃ imm3, i.operandField = .shift imm3)
    (hwindow : windowValueRead s i = none) (hshift : shiftAmountRead s i = some c) :
    exec i s = .fault f ↔ StopsWith s i f := by
  rw [hexec, withOperand_next_eq_fault, shiftAmount_eq_error_iff]
  rcases hfield with hfield | ⟨imm3, hfield⟩ <;>
    simp [stopsWith_iff, LongFormHighBits, hfield, hwindow, hshift]

/-- R87, for imm5 and off5. -/
theorem exec_eq_fault_iff_of_five {off5 : BitVec 5} {g : Content Word → State}
    (hexec : exec i s = withOperand (s.operand5 off5) fun a => .next (g a)) (hfield : i.operandField = .five off5)
    (hwindow : windowValueRead s i = none) (hshift : shiftAmountRead s i = none) :
    exec i s = .fault f ↔ StopsWith s i f := by
  rw [hexec, withOperand_next_eq_fault, State.operand5_eq_error]
  simp [stopsWith_iff, LongFormHighBits, hfield, hwindow, hshift]

/-- R87, for imm8 and off8. -/
theorem exec_eq_fault_iff_of_eight {off8 : BitVec 8} {g : Content Word → State}
    (hexec : exec i s = withOperand (s.operand8 off8) fun a => .next (g a)) (hfield : i.operandField = .eight off8)
    (hwindow : windowValueRead s i = none) (hshift : shiftAmountRead s i = none) :
    exec i s = .fault f ↔ StopsWith s i f := by
  rw [hexec, withOperand_next_eq_fault, State.operand8_eq_error]
  simp [stopsWith_iff, LongFormHighBits, hfield, hwindow, hshift]

/-- R140, D19, for a value out of a register. -/
theorem exec_eq_fault_iff_of_windowReg {c : Content Word} {g : Word → State}
    (hexec : exec i s = withOperand (windowValue c) fun v => .next (g v)) (hfield : i.operandField = .none)
    (hwindow : windowValueRead s i = some c) (hshift : shiftAmountRead s i = none) :
    exec i s = .fault f ↔ StopsWith s i f := by
  rw [hexec, withOperand_next_eq_fault, windowValue_eq_error_iff]
  simp [stopsWith_iff, LongFormHighBits, hfield, hwindow, hshift]

/-- R87, R140, R253: an amount out of the field, whose own restriction is tested first. -/
theorem exec_eq_fault_iff_of_windowField {imm5 : BitVec 5} {g : Word → State}
    (hexec : exec i s = withOperand (s.operand5 imm5) fun imm => withOperand (windowValue imm) fun d => .next (g d))
    (hfield : i.operandField = .window imm5) (hwindow : windowValueRead s i = some (value5 s imm5))
    (hshift : shiftAmountRead s i = none) : exec i s = .fault f ↔ StopsWith s i f := by
  rw [hexec]
  by_cases h : Field5Ok s imm5
  · rw [State.operand5_ok h, withOperand_ok, withOperand_next_eq_fault, windowValue_eq_error_iff]
    have hlong : ¬ LongFormHighBits s i := by
      rintro ⟨he, hfields⟩
      have hhigh : 8 ≤ imm5.toNat := by simpa [hfield] using hfields
      exact Nat.not_lt.2 hhigh (h he)
    simp [stopsWith_iff, hlong, hfield, hwindow, hshift]
  · obtain ⟨he, hhigh⟩ : s.hasExt13 = true ∧ 8 ≤ imm5.toNat := by simpa [Field5Ok] using h
    have hlong : LongFormHighBits s i := ⟨he, .inl ⟨imm5, hfield, hhigh⟩⟩
    rw [State.operand5_bad h, withOperand_error, Host.Outcome.fault.injEq, eq_comm]
    simp [stopsWith_iff, hlong, hfield, hshift]

end Kinds

theorem exec_eq_fault_iff (s : State) (i : Instr) (f : Fault) : exec i s = .fault f ↔ StopsWith s i f := by
  cases i with
  | and | or | xor | cmp | add | adc | sub | sbb | jral | exti => exact exec_eq_fault_iff_of_none rfl rfl rfl rfl
  | andi | ori | xori | cmpi | addi | adci | subi | sbbi => exact exec_eq_fault_iff_of_alu rfl rfl rfl rfl
  | sll | rol | srl | sra => exact exec_eq_fault_iff_of_shift rfl (.inl rfl) rfl rfl
  | slli rd ra imm3 | roli rd ra imm3 | srli rd ra imm3 | srai rd ra imm3 =>
    exact exec_eq_fault_iff_of_shift rfl (.inr ⟨imm3, rfl⟩) rfl (congrArg some (s.shiftOperand_eq imm3).symm)
  | stw | xchw => exact exec_eq_fault_iff_of_windowReg rfl rfl rfl rfl
  | adjw | ldw => exact exec_eq_fault_iff_of_windowField rfl rfl rfl rfl
  | ld | ldr | st | str | ldx | stx | jr | jvt | jst => exact exec_eq_fault_iff_of_five rfl rfl rfl rfl
  | ldxa | stxa | movi | movr | jal | j | jn
  | jnz | jne | jns | jnc | jult | jno | jugt | jsge | jsgt
  | jz | je | js | jc | juge | jo | jule | jslt | jsle => exact exec_eq_fault_iff_of_eight rfl rfl rfl rfl

/-- R262: an instruction that stops with no reason completes. -/
theorem exec_completes_iff (s : State) (i : Instr) : (∃ t, exec i s = .next t) ↔ ∀ f, exec i s ≠ .fault f := by
  have hrefused := exec_ne_refused i s
  cases hr : exec i s with
  | next t => exact iff_of_true ⟨t, rfl⟩ nofun
  | fault f => exact iff_of_false nofun fun h => h f rfl
  | refused r => exact absurd hr (hrefused r)

/-- A meaning never stops with the reason of a word that is no instruction. -/
theorem exec_ne_encodingNotPresent (s : State) (i : Instr) : exec i s ≠ .fault .encodingNotPresent := by
  rw [ne_eq, exec_eq_fault_iff]
  rintro (⟨h, -⟩ | ⟨h, -⟩ | ⟨h, -⟩ | ⟨h, -⟩) <;> exact nomatch h

theorem step_eq_encodingNotPresent_iff (s : State) :
    step s = .fault .encodingNotPresent ↔ ∀ i : Instr, decode s.fetch ≠ .ok i := by
  refine ⟨fun h i hi => ?_, step_of_decode_error⟩
  rw [step_of_decode_ok hi] at h
  exact exec_ne_encodingNotPresent s i h

/-- Settles O8: each instruction stops where its one operand is refused, completes elsewhere, and the fifth reason is
the step's own. -/
theorem faultsAreExactlyTheListedConditions : Obligations.FaultsAreExactlyTheListedConditions := by
  refine ⟨exec_eq_fault_iff, fun s i => ?_, step_eq_encodingNotPresent_iff⟩
  simp only [exec_completes_iff, ne_eq, exec_eq_fault_iff, StopsWith, not_or, not_and, forall_and, forall_eq]

end Sys2Proof.Machine
end

section
/-! PROOF. CMP and CMPI (40_arith_logic.md R118, R119). The end of the compare family sets the flags of the difference
and writes no word. -/

namespace Sys2Proof.Machine

open Sys2Proof.Claims

/-- R34: an end that writes no word, keeps W and does no bus cycle. -/
theorem Completion.writesNoWord {s t : State} {fam : Family} (h : Completion s fam none t) (hw : fam ≠ .window)
    (hb : fam ≠ .busStore) (he : fam ≠ .exti) : WritesNoWord s t := by
  have hl : fam ≠ .busLoad := by rintro rfl; cases h
  exact ⟨h.sameMemory, h.w_eq hw, h.noBusCycle hl hb, h.extCleared he⟩

/-- R111: an instruction that ends with a comparison leaves the flags of the difference, with a carry in of 1. -/
theorem completes_with_comparison {s : State} {r : Result} {a b : Content Word}
    (h : r = .next (s.setArithFlags (Content.map₂ (subOut · · true) a b)).advance) :
    ∃ t, r = .next t ∧ t.pc = pcPlus s 1 ∧ WritesNoWord s t ∧ DiffFlags t a b (.defined true) := by
  rw [Content.map₂_eq_map₃] at h
  have hend := Completion.compare (s := s) (Content.map₃ subOut a b (.defined true))
  exact ⟨_, h, hend.pc_eq nofun nofun, hend.writesNoWord nofun nofun nofun, s.setArithFlags_sub a b (.defined true)⟩

theorem exec_cmpi_next {s : State} {ra : RegNum} {imm3 : BitVec 3} (h : AluFieldOk s imm3) :
    exec (.cmpi ra imm3) s =
      .next (s.setArithFlags (Content.map₂ (subOut · · true) (s.reg ra) (aluValue s imm3))).advance := by
  show execCmpi ra imm3 s = _
  rw [execCmpi, State.aluOperand_ok h, withOperand_ok]

/-- Settles O24: CMP is the end of the family with two registers. -/
theorem cmpSetsTheFlagsOnly : Obligations.CmpSetsTheFlagsOnly :=
  fun _ _ _ => ⟨isWordOf_encode rfl, completes_with_comparison rfl⟩

/-- Settles O25: CMPI has the operand of R110 in place of Rb, and row 3 as every immediate of the ALU has it. -/
theorem cmpiSetsTheFlagsOnly : Obligations.CmpiSetsTheFlagsOnly :=
  fun _ _ _ => ⟨isWordOf_encode rfl, rowThree_of_aluOperand _ (fun _ _ => rfl) fun _ _ => rfl,
    fun h => completes_with_comparison (exec_cmpi_next h)⟩

end Sys2Proof.Machine
end

section
/-! PROOF. The window instructions one by one (41_window.md R140 to R144). Two ends set W, one of which leaves the old
W in the new window; an amount or a value that is no multiple of 8 stops all four. -/

namespace Sys2Proof.Machine

open Sys2Proof.Claims

/-! ## The two ends -/

section Ends

variable {s : State} {r : Result} {w : Word}

/-- R141, R143: W moves, and no word of `mem` is written. -/
theorem completes_with_setWindow (h : r = .next (s.setWindow w).advance) :
    ∃ t, r = .next t ∧ t.pc = pcPlus s 1 ∧ SameMemory s t ∧ SameFlags s t ∧ NoBusCycle s t ∧ ExtCleared t ∧
      t.w = w :=
  ⟨_, h, s.nextPc_eq, fun _ => rfl, ⟨rfl, rfl, rfl, rfl⟩, rfl, ⟨rfl, rfl⟩, rfl⟩

/-- R142, R144: W moves, and Rd of the new window is the one word written. -/
theorem completes_with_exchangeWindow {rd : RegNum} (h : r = .next (s.exchangeWindow w rd).advance) :
    ∃ t, r = .next t ∧ t.pc = pcPlus s 1 ∧ SameFlags s t ∧ NoBusCycle s t ∧ ExtCleared t ∧ t.w = w ∧
      t.reg rd = .defined s.w ∧ SameMemoryExcept s t ((s.setWindow w).regAddr rd) := by
  obtain ⟨hlink, hmem⟩ := s.exchangeWindow_frame w rd
  rw [← State.setWindow_w s w, ← State.regAddr_eq, State.setWindow_w] at hmem
  exact ⟨_, h, s.nextPc_eq, ⟨rfl, rfl, rfl, rfl⟩, rfl, ⟨rfl, rfl⟩, rfl, hlink, hmem⟩

end Ends

/-! ## The meanings, with the amount they have -/

section Meanings

variable {s : State} {rd rb : RegNum} {imm5 : BitVec 5} {d v : Word}

theorem exec_adjw_next (hf : Field5Ok s imm5) (hd : value5 s imm5 = .defined d) (h8 : d.toNat % 8 = 0) :
    exec (.adjw imm5) s = .next (s.setWindow (s.w + d)).advance := by
  show execAdjw imm5 s = _
  rw [execAdjw, State.operand5_ok hf, withOperand_ok, windowValue_ok hd h8, withOperand_ok]

/-- R141, R142: ADJW and LDW test the long form's high bits before all else. -/
theorem withOperand_operand5_bad {k : Content Word → Result} (h : ¬ Field5Ok s imm5) :
    withOperand (s.operand5 imm5) k = .fault .longFormHighBits := by
  rw [State.operand5_bad h, withOperand_error]

/-- R140: a value that is no multiple of 8 does not go into W. -/
theorem withOperand_windowValue_bad {k : Word → Result} {c : Content Word} (hc : c = .defined v)
    (h8 : v.toNat % 8 ≠ 0) : withOperand (windowValue c) k = .fault .windowNotMultipleOf8 := by
  rw [windowValue_bad (not_surely_of_defined hc h8), withOperand_error]

/-- R140, R253: an allowed field is no help to an amount that is no multiple of 8. -/
theorem withOperand_windowAmount_bad {k : Word → Result} (hf : Field5Ok s imm5) (hd : value5 s imm5 = .defined d)
    (h8 : d.toNat % 8 ≠ 0) :
    withOperand (s.operand5 imm5) (fun imm => withOperand (windowValue imm) k) = .fault .windowNotMultipleOf8 := by
  rw [State.operand5_ok hf, withOperand_ok, withOperand_windowValue_bad hd h8]

end Meanings

/-! ## The statements -/

/-- Settles O32: both move W by the amount of the field, LDW with the end that links the windows. -/
theorem adjwAndLdwMoveTheWindow : Obligations.AdjwAndLdwMoveTheWindow := by
  intro s rd imm5
  refine ⟨isWordOf_encode rfl, isWordOf_encode rfl, fun d hf hd h8 => ?completes,
    fun hf => ⟨withOperand_operand5_bad hf, withOperand_operand5_bad hf⟩,
    fun d hf hd h8 => ⟨withOperand_windowAmount_bad hf hd h8, withOperand_windowAmount_bad hf hd h8⟩⟩
  case completes =>
    rw [← regAddr_setWindow_add, ← BitVec.add_def]
    exact ⟨completes_with_setWindow (exec_adjw_next hf hd h8), completes_with_exchangeWindow (exec_ldw_next hf hd h8)⟩

/-- Settles O33: both load W from Rb of the old window, XCHW with the end that links the windows. -/
theorem stwAndXchwLoadTheWindow : Obligations.StwAndXchwLoadTheWindow := by
  intro s rd rb
  refine ⟨isWordOf_encode rfl, isWordOf_encode rfl, fun v hv h8 => ?completes,
    fun v hv h8 => ⟨withOperand_windowValue_bad hv h8, withOperand_windowValue_bad hv h8⟩⟩
  case completes =>
    have haddr : (s.setWindow v).regAddr rd = BitVec.ofNat 16 (v.toNat + rd.toNat) := State.regAddr_eq _ rd
    rw [← haddr]
    exact ⟨completes_with_setWindow (exec_stw_next hv h8), completes_with_exchangeWindow (exec_xchw_next hv h8)⟩

end Sys2Proof.Machine
end

section
/-! PROOF. MOVI, loads and stores (42_exti_moves.md R151, 44_load_store.md R200 to R208). A load writes Rd as a move
does; a store writes the word at an address; the bus forms add a cycle instead of the access to `mem`. The two forms of
an instruction differ by the address alone. -/

namespace Sys2Proof.Machine

open Sys2Proof.Claims

/-! ## Addresses (R200, R202, R206) -/

theorem State.baseAddr_eq (s : State) (ra : RegNum) (off : Content Word) :
    s.baseAddr ra off = addWords (s.reg ra) off :=
  Content.map₂_add _ _

theorem State.pcAddr_eq (s : State) (ra : RegNum) (off : Content Word) :
    s.pcAddr ra off = addWords (addWords (pcPlus s 1) off) (s.reg ra) := by
  rw [State.pcAddr, Content.map₂_add, State.pcRelative_eq]

/-! ## The ends -/

section Ends

variable (s : State) (rd rs : RegNum) (addr : Content Word)

/-- R201, R202: the end of LD and LDR. -/
theorem State.finishLoad_frame :
    WritesRegister s (s.finishLoad rd addr) rd (wordAt s addr) ∧ SameFlags s (s.finishLoad rd addr) ∧
      (s.finishLoad rd addr).pc = pcPlus s 1 := by
  rw [← State.memReadAt_eq]
  exact s.setReg_advance_frame rd (s.memReadAt addr)

/-- R205, R206: what the end of ST and STR leaves as it was. -/
theorem State.finishStore_leaves :
    (s.finishStore rs addr).w = s.w ∧ SameFlags s (s.finishStore rs addr) ∧ NoBusCycle s (s.finishStore rs addr) ∧
      ExtCleared (s.finishStore rs addr) ∧ (s.finishStore rs addr).pc = pcPlus s 1 := by
  have hend := Completion.store (s := s) rs addr
  exact ⟨hend.w_eq nofun, hend.sameFlags nofun nofun nofun nofun, hend.noBusCycle nofun nofun,
    hend.extCleared nofun, hend.pc_eq nofun nofun⟩

/-- R205, R206: at a defined address the word there is the one written. -/
theorem State.finishStore_at {s : State} {addr : Content Word} {a : Word} (h : addr = .defined a) :
    (s.finishStore rs addr).memRead a = s.reg rs ∧ SameMemoryExcept s (s.finishStore rs addr) a := by
  obtain rfl := h
  exact s.finishStore_frame rs (.defined a)

/-- R203, R204: the end of LDX and LDXA. -/
theorem State.finishExtLoad_answers : ∃ a v, (s.finishExtLoad rd addr).extTrace = s.extTrace ++ [.read a v] ∧
    (∀ b, addr = .defined b → a = b ∧ (s.finishExtLoad rd addr).reg rd = .defined v) ∧
    (addr = .undefined → (s.finishExtLoad rd addr).reg rd = .undefined) ∧
    SameMemoryExcept s (s.finishExtLoad rd addr) (s.regAddr rd) ∧ (s.finishExtLoad rd addr).w = s.w ∧
    SameFlags s (s.finishExtLoad rd addr) ∧ ExtCleared (s.finishExtLoad rd addr) ∧
    (s.finishExtLoad rd addr).pc = pcPlus s 1 := by
  have hend := Completion.busLoad (s := s) rd addr
  obtain ⟨htrace, hreg, hmem⟩ := s.finishExtLoad_frame rd addr
  refine ⟨_, _, htrace, ?_, ?_, hmem, hend.w_eq nofun, hend.sameFlags nofun nofun nofun nofun,
    hend.extCleared nofun, hend.pc_eq nofun nofun⟩
  · rintro b rfl
    exact ⟨rfl, hreg⟩
  · rintro rfl
    exact hreg

/-- R207, R208: the end of STX and STXA. -/
theorem State.finishExtStore_drives : ∃ a v, (s.finishExtStore rs addr).extTrace = s.extTrace ++ [.write a v] ∧
    (∀ b, addr = .defined b → a = b) ∧ (∀ x, s.reg rs = .defined x → v = x) ∧
    SameMemory s (s.finishExtStore rs addr) ∧ (s.finishExtStore rs addr).w = s.w ∧
    SameFlags s (s.finishExtStore rs addr) ∧ ExtCleared (s.finishExtStore rs addr) ∧
    (s.finishExtStore rs addr).pc = pcPlus s 1 := by
  have hend := Completion.busStore (s := s) rs addr
  refine ⟨s.resolve .address addr, s.resolve .data (s.reg rs), rfl, ?_, fun x hx => ?_, hend.sameMemory,
    hend.w_eq nofun, hend.sameFlags nofun nofun nofun nofun, hend.extCleared nofun, hend.pc_eq nofun nofun⟩
  · rintro b rfl
    rfl
  · rw [hx, State.resolve_defined]

end Ends

/-! ## The statements about one instruction -/

/-- Settles O38: an allowed field is the constant of R86, and any other is the one fault of R87. -/
theorem moviLoadsAConstant : Obligations.MoviLoadsAConstant :=
  fun s rd _ => ⟨isWordOf_encode rfl, completesUnless8 fun _ => ⟨_, rfl, s.setReg_advance_frame rd _⟩⟩

/-- Settles O41: both end as a load, each from its own address. -/
theorem loadsFromMemory : Obligations.LoadsFromMemory := by
  intro s rd ra off5
  refine ⟨isWordOf_encode rfl, isWordOf_encode rfl, completesUnless5 fun _ => ⟨_, rfl, ?ld⟩,
    completesUnless5 fun _ => ⟨_, rfl, ?ldr⟩⟩
  case ld =>
    rw [← State.baseAddr_eq]
    exact s.finishLoad_frame rd _
  case ldr =>
    rw [← State.pcAddr_eq]
    exact s.finishLoad_frame rd _

/-- R205, R206: a store with an allowed field, at the address the rule gives and at the one the meaning draws. -/
theorem store_completes {s : State} {rs : RegNum} {off5 : BitVec 5} {addr : Content Word → Content Word}
    {sum : Content Word} (hsum : addr (value5 s off5) = sum) :
    CompletesUnless (Field5Ok s off5) (withOperand (s.operand5 off5) fun off => .next (s.finishStore rs (addr off)))
      .longFormHighBits fun t =>
        (∀ a, sum = .defined a → t.memRead a = s.reg rs ∧ SameMemoryExcept s t a) ∧
        (∀ a, s.resolve .address (addr (value5 s off5)) = a → t.memRead a = s.reg rs ∧ SameMemoryExcept s t a) ∧
        t.w = s.w ∧ SameFlags s t ∧ NoBusCycle s t ∧ ExtCleared t ∧ t.pc = pcPlus s 1 := by
  subst hsum
  refine completesUnless5 fun _ => ⟨_, rfl, fun a ha => State.finishStore_at rs ha, ?_, s.finishStore_leaves rs _⟩
  rintro a rfl
  exact s.finishStore_frame rs _

/-- Settles O42: both end as a store, each at its own address. -/
theorem storesToMemory : Obligations.StoresToMemory :=
  fun s _ ra _ => ⟨isWordOf_encode rfl, isWordOf_encode rfl, store_completes (s.baseAddr_eq ra _),
    store_completes (s.pcAddr_eq ra _)⟩

/-- Settles O43: both end as a load of the bus, LDXA at its operand itself. -/
theorem busLoadsWriteTheAnswer : Obligations.BusLoadsWriteTheAnswer := by
  intro s rd ra off5 off8
  refine ⟨isWordOf_encode rfl, isWordOf_encode rfl, completesUnless5 fun _ => ⟨_, rfl, ?ldx⟩,
    completesUnless8 fun _ => ⟨_, rfl, s.finishExtLoad_answers rd _⟩⟩
  case ldx =>
    rw [← State.baseAddr_eq]
    exact s.finishExtLoad_answers rd _

/-- Settles O44: both end as a store of the bus, STXA at its operand itself. -/
theorem busStoresDriveTheBus : Obligations.BusStoresDriveTheBus := by
  intro s rs ra off5 off8
  refine ⟨isWordOf_encode rfl, isWordOf_encode rfl, completesUnless5 fun _ => ⟨_, rfl, ?stx⟩,
    completesUnless8 fun _ => ⟨_, rfl, s.finishExtStore_drives rs _⟩⟩
  case stx =>
    rw [← State.baseAddr_eq]
    exact s.finishExtStore_drives rs _

/-! ## Registers and instruction words are memory -/

theorem exec_st_next {s : State} {rs ra : RegNum} {f : BitVec 5} (h : Field5Ok s f) :
    exec (.st rs ra f) s = .next (s.finishStore rs (addWords (s.reg ra) (value5 s f))) := by
  show execSt rs ra f s = _
  rw [execSt, State.operand5_ok h, withOperand_ok, State.baseAddr_eq]

theorem exec_str_next {s : State} {rs ra : RegNum} {f : BitVec 5} (h : Field5Ok s f) :
    exec (.str rs ra f) s = .next (s.finishStore rs (addWords (addWords (pcPlus s 1) (value5 s f)) (s.reg ra))) := by
  show execStr rs ra f s = _
  rw [execStr, State.operand5_ok h, withOperand_ok, State.pcAddr_eq]

/-- R54: a store to the address of Rq writes Rq and no other register. -/
theorem State.finishStore_regAddr (s : State) (rs p q : RegNum) :
    (s.finishStore rs (.defined (s.regAddr q))).reg p = if p = q then s.reg rs else s.reg p :=
  s.reg_setReg p q (s.reg rs)

/-- Settles O45: the store is a register write, and the load a read of the register. -/
theorem loadsAndStoresReachTheWindow : Obligations.LoadsAndStoresReachTheWindow := by
  intro s r ra q off5 hok haddr
  constructor
  · refine ⟨_, exec_st_next hok, ?_⟩
    rw [haddr]
    exact ⟨(s.finishStore_regAddr r q q).trans (if_pos rfl),
      fun p hp => (s.finishStore_regAddr r p q).trans (if_neg hp)⟩
  · obtain ⟨hwrites, -⟩ := s.finishLoad_frame r (s.baseAddr ra (value5 s off5))
    refine ⟨_, exec_ld_next hok, ?_, fun p hp => (WritesRegister.reg hwrites p).trans (if_neg hp)⟩
    rw [State.baseAddr_eq, haddr] at hwrites ⊢
    exact hwrites.1

/-- D10, R53: after a store to the next instruction's address the next step fetches what was stored. -/
theorem State.fetch_finishStore {s : State} {rs : RegNum} {p w : Word} (hp : pcPlus s 1 = .defined p)
    (hw : s.reg rs = .defined w) : (s.finishStore rs (.defined p)).fetch = w := by
  have hpc : (s.finishStore rs (.defined p)).pc = .defined p := s.nextPc_eq.trans hp
  have hmem : (s.finishStore rs (.defined p)).memRead p = .defined w :=
    (State.finishStore_at rs rfl).1.trans hw
  exact State.fetch_eq hpc hmem

/-- Settles O46: ST and STR reach the next address by their own sums, and the next step runs what it fetches. -/
theorem storeIsSeenByTheNextFetch : Obligations.StoreIsSeenByTheNextFetch := by
  intro s rs ra off5 p w i hok hp hw hi
  have hfetch : (s.finishStore rs (.defined p)).fetch = w := State.fetch_finishStore hp hw
  have hstep : step (s.finishStore rs (.defined p)) = exec i (s.finishStore rs (.defined p)) :=
    step_of_decode_ok (hfetch ▸ hi)
  exact ⟨fun haddr => ⟨_, haddr ▸ exec_st_next hok, hfetch, hstep⟩,
    fun haddr => ⟨_, haddr ▸ exec_str_next hok, hfetch, hstep⟩⟩

end Sys2Proof.Machine
end

section
/-! PROOF. The unsigned comparison jumps, the calls and the jumps through registers and tables (43_jumps.md R160 to
R185). A jump writes no word, and a call the one word of its link. -/

namespace Sys2Proof.Machine

open Sys2Proof.Claims

/-! ## The unsigned conditions (90_conflicts.md C2, D16) -/

/-- JULE is taken where JUGT is not: where C = 0 or Z = 1. -/
theorem State.condUnsignedLe_eq (s : State) :
    s.condUnsignedLe = Content.map₂ (fun c z => !(c && !z)) s.flagC s.flagZ := by
  have hde : ∀ c z : Bool, (!c || z) = !(c && !z) := by decide
  simp only [State.condUnsignedLe, hde]

theorem State.not_condUnsignedLe (s : State) :
    s.condUnsignedLe.map (!·) = Content.map₂ (fun c z => c && !z) s.flagC s.flagZ := by
  rw [State.condUnsignedLe_eq, Content.map_map₂]
  simp only [Bool.not_not]

/-- Settles O49: JULE jumps on the model's own condition and JUGT on its negation. -/
theorem jumpsOnUnsignedComparisons : Obligations.JumpsOnUnsignedComparisons := by
  refine ⟨?jugt, ?jule, fun off8 => ⟨isWordOf_encode rfl, isWordOf_encode rfl⟩⟩
  case jugt => exact conditional_of_condJump fun s off8 => congrArg (condJump · off8 s) s.not_condUnsignedLe
  case jule => exact conditional_of_condJump fun s off8 => congrArg (condJump · off8 s) s.condUnsignedLe_eq

/-! ## Calls -/

/-- Settles O52: both end with the link, JAL at its PC-relative target and JRAL at what Rb held before. -/
theorem callsLeaveTheReturnAddress : Obligations.CallsLeaveTheReturnAddress := by
  intro s rd rb off8
  refine ⟨isWordOf_encode rfl, isWordOf_encode rfl, completesUnless8 fun _ => ⟨_, rfl, ?jal⟩, ⟨_, rfl, ?jral⟩⟩
  case jal =>
    obtain ⟨hwrites, hflags⟩ := s.link_jump_frame rd (s.pcRelative (value8 s off8))
    exact ⟨hwrites, hflags, s.pcRelative_eq _⟩
  case jral =>
    obtain ⟨hwrites, hflags⟩ := s.link_jump_frame rd (s.reg rb)
    exact ⟨hwrites, hflags, rfl⟩

/-! ## Jumps through registers and tables -/

/-- R34: a jump writes nothing but PC. -/
theorem State.jump_frame (s : State) (target : Content Word) :
    WritesNoWord s (s.jump target) ∧ SameFlags s (s.jump target) := by
  have hend := Completion.jump (s := s) target
  exact ⟨hend.writesNoWord nofun nofun nofun, hend.sameFlags nofun nofun nofun nofun⟩

/-- R180, R185: the target is the table plus the word it holds at the index. -/
theorem State.tableTarget_eq (s : State) (table index : Content Word) :
    s.tableTarget table index = addWords table (wordAt s (addWords table index)) := by
  rw [State.tableTarget, Content.map₂_add, Content.map₂_add, State.memReadAt_eq]

/-- Settles O53: JR jumps to the sum of Rs and its offset. -/
theorem jrJumpsToTheRegister : Obligations.JrJumpsToTheRegister := by
  intro s rs off5
  refine ⟨isWordOf_encode rfl, completesUnless5 fun _ => ⟨_, rfl, ?_⟩⟩
  obtain ⟨hword, hflags⟩ := s.jump_frame (Content.map₂ (· + ·) (s.reg rs) (value5 s off5))
  exact ⟨hword, hflags, Content.map₂_add _ _⟩

/-- Settles O54: both jump through a table, JST through one PC-relative and JVT through the one in Rs. -/
theorem tableJumpsAddTheEntryToTheTable : Obligations.TableJumpsAddTheEntryToTheTable := by
  intro s rs off5
  refine ⟨isWordOf_encode rfl, isWordOf_encode rfl, completesUnless5 fun _ => ⟨_, rfl, ?jst⟩,
    completesUnless5 fun _ => ⟨_, rfl, ?jvt⟩⟩
  case jst =>
    obtain ⟨hword, hflags⟩ := s.jump_frame (s.tableTarget (s.pcRelative (value5 s off5)) (s.reg rs))
    refine ⟨hword, hflags, ?_⟩
    rintro table rfl
    rw [← State.pcRelative_eq]
    exact s.tableTarget_eq _ _
  case jvt =>
    obtain ⟨hword, hflags⟩ := s.jump_frame (s.tableTarget (s.reg rs) (value5 s off5))
    exact ⟨hword, hflags, s.tableTarget_eq _ _⟩

end Sys2Proof.Machine
end
